-- ==== Sys2Proof/Word.lean ====
section
/-! DEFINITION. The words, numbers and identifiers of the WZ3208 (00_scope.md, 4.1 to 4.3).

Bit vectors hold what the manual lets wrap or shows as a word: tokens, arrival numbers, epochs, tags,
generations, sequence numbers. Units, counts, limits and ticks, which the manual only counts and compares,
are natural numbers; agents, domains, ports and slots are indexes of a fixed range. -/

namespace Sys2Proof

/-- One byte of a frame. -/
abbrev Byte := BitVec 8

/-- A lease token, 1 to 4,294,967,295 (00_scope.md, 4.3). -/
abbrev Token := BitVec 32

/-- An arrival number, 32 bits, wrapping (R42). -/
abbrev Arrival := BitVec 32

/-- An agent's epoch, 0 to 65,535, wrapping (R115). -/
abbrev Epoch := BitVec 16

/-- A tag, a 16-bit value the agent supplies. -/
abbrev Tag := BitVec 16

/-- A slot's generation, 0 to 1,023, wrapping (R2, R40). -/
abbrev Gen := BitVec 10

/-- A notice sequence number, 0 to 255, wrapping (R139). -/
abbrev SeqNo := BitVec 8

/-- An agent number, 0 to 7. -/
abbrev AgentNo := Fin 8

/-- A port: 0 to 7 are the agent ports, 8 is the check port (R170 orders them so). -/
abbrev PortNo := Fin 9

/-- A domain number, 0 to 15. -/
abbrev DomainNo := Fin 16

/-- A lease slot number, 0 to 63. -/
abbrev LeaseIdx := Fin 64

/-- A wait slot number, 0 to 23. -/
abbrev WaitIdx := Fin 24

/-- The number of units in the unit space, 1,048,576 (00_scope.md, 4.1). -/
abbrev unitSpace : Nat := 1048576

/-- A lease id: slot and generation (R2). -/
structure LeaseId where
  slot : LeaseIdx
  gen  : Gen
  deriving DecidableEq, Repr

/-- A wait id: slot and generation (R40). -/
structure WaitId where
  slot : WaitIdx
  gen  : Gen
  deriving DecidableEq, Repr

/-- A range of units, given as base and count (00_scope.md, 4.1). -/
structure Range where
  base  : Nat
  count : Nat
  deriving DecidableEq, Repr

/-- SHARED permits reading, EXCLUSIVE reading and writing (chapter 1.2). -/
inductive Mode where
  | shared
  | exclusive
  deriving DecidableEq, Repr

/-- The two priority classes. -/
inductive Priority where
  | normal
  | urgent
  deriving DecidableEq, Repr

/-- The access a resource checker asks about (chapter 10.5). -/
inductive Access where
  | read
  | write
  deriving DecidableEq, Repr

/-- Why an agent was fenced: a lease whose grace lapsed, or an admin's EVICT (R101). -/
inductive FenceCause where
  | graceLapse (lease : LeaseId)
  | evicted
  deriving DecidableEq, Repr

/-- The port of an agent: agent k is served by port k. -/
abbrev agentPort (k : AgentNo) : PortNo := k.castSucc

/-- The check port, the ninth. -/
abbrev checkPort : PortNo := 8

end Sys2Proof
end

