-- ==== Sys2Proof/Syntax.lean ====
section
/-! DEFINITION. The commands of the block: one constructor of Instr for each row of spec/opcode_table.json,
and the operand types they need.

A request (ACQUIRE to CHECK_AGENT) is not handed to the block with its fields: it arrives as a frame by SEND
and waits in its port's request slot. The row of a request is the event in which the engine, or the notice
unit, TAKES it (R171), so its operand is the port; its fields are the bytes of the frame held there. -/

namespace Sys2Proof

/-- A notice as the engine hands it to the notice unit: its kind and the fields of the kind (R137). -/
inductive Notice where
  | granted (wait : WaitId) (lease : LeaseId) (token : Token) (mode : Mode) (range : Range) (tag : Option Tag)
  | warn (lease : LeaseId) (remaining : Nat)
  | recall (lease : LeaseId) (remaining : Nat) (requester : AgentNo)
  | expired (lease : LeaseId) (tag : Option Tag)
  | revoked (lease : LeaseId) (tag : Option Tag)
  | waitLapsed (wait : WaitId) (tag : Option Tag)
  | fenced (cause : FenceCause) (leasesEnded waitersDropped : Nat)
  deriving DecidableEq, Repr

/-- The part of a link transaction that a command brings. A transaction opens at a falling edge of SEL# and
closes at the next rising edge, and other events may be taken in between (R164, 00_scope.md 4.2). opens is
the falling edge; closes is the rising edge, with every bit clocked on SDI in the transaction, in order, from
the transaction kind on; whole is one after the other with nothing in between. -/
inductive LinkPhase where
  | opens
  | closes (sdi : List Bool)
  | whole (sdi : List Bool)
  deriving DecidableEq, Repr

/-- The commands, in the order of the table. -/
inductive Instr where
  | acquire (agent : AgentNo)
  | cancel (agent : AgentNo)
  | renew (agent : AgentNo)
  | trim (agent : AgentNo)
  | downgrade (agent : AgentNo)
  | upgrade (agent : AgentNo)
  | release (agent : AgentNo)
  | setTick (agent : AgentNo)
  | forceRevoke (agent : AgentNo)
  | evict (agent : AgentNo)
  | attach (agent : AgentNo)
  | detach (agent : AgentNo)
  | resync (agent : AgentNo)
  | setAccess (agent : AgentNo)
  | configDomain (agent : AgentNo)
  | domainInfo (agent : AgentNo)
  | noticeRead (agent : AgentNo)
  | noticeAck (agent : AgentNo)
  | setNoticeMask (agent : AgentNo)
  | query (agent : AgentNo)
  | queryNext (agent : AgentNo)
  /-- STATUS may come from an agent port or from the check port. -/
  | status (port : PortNo)
  | checkToken
  | checkAgent
  /-- The first byte clocked is 53h (R164). -/
  | send (port : PortNo) (phase : LinkPhase)
  /-- The first byte clocked is 43h (R164). -/
  | collect (port : PortNo) (phase : LinkPhase)
  /-- The first byte clocked is 52h (R164). -/
  | portReset (port : PortNo) (phase : LinkPhase)
  /-- The first byte clocked is any other, or is incomplete (R164). -/
  | ignoredTransaction (port : PortNo) (phase : LinkPhase)
  | deviceReset
  /-- The operand is the level of the straps CLKSEL[1:0] when RST# is released. -/
  | resetRelease (clksel : BitVec 2)
  | intervalExpiry
  | tick
  | leaseExpiry (slot : LeaseIdx)
  | graceLapse (slot : LeaseIdx)
  | waitLapse (slot : WaitIdx)
  /-- The operand is one arrival of R141: the notices of one engine action, in posting order. -/
  | noticePost (arrival : List (AgentNo × Notice))
  | unknownRequest (port : PortNo)
  deriving DecidableEq, Repr

end Sys2Proof
end

