-- ==== Sys2Proof/Decode.lean ====
section
/-! DEFINITION. The command that a word spells by the opcode table's bits. No row of the table gives bits, so
no word spells a command. The frames a link carries are judged and read in Machine/Operands.lean. -/

namespace Sys2Proof

/-- None of the 37 rows gives bits. -/
def decodeTableWord (_nbits _w : Nat) : Option Instr := none

end Sys2Proof
end

