-- ==== Sys2Proof/Config.lean ====
section
/-! DEFINITION. What the manual leaves to the part: the free values. The part has no other implementation
choice; the CLKSEL straps are an input, sampled by RESET_RELEASE. -/

namespace Sys2Proof.Config

/-- FREE VALUE (log entry 9). The bits of a reply record that the layout tables of 11.10 give no meaning:
bits 7:3 of byte 8 of a lease record; bit 7 of byte 8 of a waiter record, and its bits 6:4 and, for
AGENT_LIMIT, byte 21, where the blocked reason names no agent; bits 7:4 of byte 2 of a notice record.
The first argument is the number of the draw (State.draws), the second tells the bytes of one reply apart. -/
opaque freeByte : Nat → Nat → BitVec 8

end Sys2Proof.Config
end

