-- ==== Sys2Proof/Machine/State.lean ====
section
/-! DEFINITION. The state of the WZ3208, as plain data, and its value after device reset. Every record and
field is one the manual names; the four fields of State marked MODEL'S OWN are the exceptions. -/

namespace Sys2Proof.Machine

/-! ### The lease table (chapter 1) -/

/-- The state of a live lease (R7). -/
inductive LeaseState where
  | live
  | recalled
  deriving DecidableEq, Repr

/-- Why a lease ended (chapter 1.7). -/
inductive EndCause where
  | released
  | expired
  | revoked
  | detached
  | fenced
  deriving DecidableEq, Repr

/-- A lease record (chapter 1.2). Its lease id is the number of the slot it stands in, with gen. -/
structure Lease where
  gen       : Gen
  holder    : AgentNo
  domain    : DomainNo
  range     : Range
  mode      : Mode
  priority  : Priority
  token     : Token
  duration  : Nat
  remaining : Nat
  /-- 0 means no warn. -/
  warn      : Nat
  tag       : Option Tag
  state     : LeaseState
  renewals  : Nat
  /-- The wait id on whose behalf the lease was recalled, or absent (R6). -/
  origin    : Option WaitId
  deriving DecidableEq, Repr

/-- What a FREE slot remembers of the lease that last ended in it (R11, R14). -/
structure LeaseMemory where
  gen    : Gen
  cause  : EndCause
  token  : Token
  holder : AgentNo
  deriving DecidableEq, Repr

/-- The three conditions of a lease slot (R1). -/
inductive SlotContent where
  | free (memory : Option LeaseMemory)
  | held (lease : Lease)
  deriving DecidableEq, Repr

/-- A lease slot: its content and its next generation (chapter 1.1). -/
structure LeaseSlot where
  content : SlotContent
  nextGen : Gen
  deriving DecidableEq, Repr

/-! ### The wait list (chapter 3) -/

/-- What an ACQUIRE asks for, once checked and made effective: the part of a waiter record that a grant
turns into a lease (R4, R42). -/
structure Claim where
  agent    : AgentNo
  domain   : DomainNo
  range    : Range
  mode     : Mode
  priority : Priority
  duration : Nat
  warn     : Nat
  tag      : Option Tag
  deriving DecidableEq, Repr

/-- A blocked reason together with the blocker it names (R28, R49). -/
inductive Blocked where
  | conflict (lease : LeaseId) (holder : AgentNo)
  | earlierWaiter (wait : WaitId) (agent : AgentNo)
  | agentLimit (limit : Nat)
  | tableFull
  deriving DecidableEq, Repr

/-- Wait remaining: a number of ticks, or UNBOUNDED (chapter 3.2). -/
inductive WaitLeft where
  | bounded (ticks : Nat)
  | unbounded
  deriving DecidableEq, Repr

/-- A waiter record (chapter 3.2). -/
structure Waiter where
  id      : WaitId
  claim   : Claim
  left    : WaitLeft
  arrival : Arrival
  blocked : Blocked
  deriving DecidableEq, Repr

/-- Why a waiter left the list (chapter 3.4); GRANTED names the lease. -/
inductive WaitEnd where
  | granted (lease : LeaseId)
  | lapsed
  | cancelled
  | dropped
  deriving DecidableEq, Repr

/-- What an empty wait slot remembers of the waiter that last left it (R46). -/
structure WaitMemory where
  gen   : Gen
  cause : WaitEnd
  agent : AgentNo
  deriving DecidableEq, Repr

/-- A wait slot: its memory and its next generation. Whether it is occupied is not stored twice: it is
occupied when a waiter of the list names it (R39), and it then holds no memory. -/
structure WaitSlot where
  memory  : Option WaitMemory
  nextGen : Gen
  deriving DecidableEq, Repr

/-! ### Agents, access rights and domains (chapters 7 and 8) -/

/-- Where an agent stands with the part (chapter 7.1). -/
inductive AgentState where
  | detached
  | attached
  | fenced
  deriving DecidableEq, Repr

/-- The agent record (chapter 7.1). -/
structure AgentRecord where
  state      : AgentState
  epoch      : Epoch
  leaseCount : Nat
  waitCount  : Nat
  fenceCause : Option FenceCause
  denials    : Nat
  deriving DecidableEq, Repr

/-- The access record (chapter 7.5). Bit d of the mask names domain d. -/
structure AccessRecord where
  mask       : BitVec 16
  exclusive  : Bool
  urgent     : Bool
  leaseLimit : Nat
  waitLimit  : Nat
  admin      : Bool
  deriving DecidableEq, Repr

/-- The domain record (R126). -/
structure DomainRecord where
  bound           : Nat
  defaultDuration : Nat
  maxDuration     : Nat
  defaultWarn     : Nat
  recallGrace     : Nat
  recallEnabled   : Bool
  deriving DecidableEq, Repr

/-! ### Notices (chapter 9) -/

/-- A notice in a queue, with the sequence number it took at posting (R137). -/
structure NoticeRecord where
  seq    : SeqNo
  notice : Notice
  deriving DecidableEq, Repr

/-- One agent's notice state (chapter 9.2); bit n - 1 of the mask is for kind code n. -/
structure NoticeState where
  queue     : List NoticeRecord
  nextSeq   : SeqNo
  mask      : BitVec 7
  lost      : Bool
  lostCount : Nat
  deriving DecidableEq, Repr

/-! ### Query cursors (chapter 10) -/

/-- What a WAITS cursor keeps of the last waiter it returned (R153). -/
structure KeptWaiter where
  id       : WaitId
  arrival  : Arrival
  priority : Priority
  deriving DecidableEq, Repr

/-- The filter of an open cursor (chapter 10.1); a WAITS filter without an agent is ANY. -/
inductive Filter where
  | byRange (range : Range)
  | byAgent (agent : AgentNo)
  | waits (agent : Option AgentNo)
  deriving DecidableEq, Repr

/-- The position of an open cursor: a lease slot, or for WAITS the head of the list or the kept waiter. -/
inductive Position where
  | atSlot (slot : LeaseIdx)
  | atHead
  | afterWaiter (kept : KeptWaiter)
  deriving DecidableEq, Repr

/-- An open query cursor. -/
structure Cursor where
  filter   : Filter
  position : Position
  deriving DecidableEq, Repr

/-! ### Ports and frames (chapter 11) -/

/-- A good request frame, less its length byte and CRC, which follow from the rest (R173). -/
structure Request where
  kind   : Byte
  seqTag : Byte
  epoch  : Epoch
  body   : List Byte
  deriving DecidableEq, Repr

/-- The outcomes of the outcome table of 11.10. -/
inductive ReplyOutcome where
  | none | ok | granted | queued | cancelled | allow | deny | endOfQuery
  | notAttached | alreadyAttached | fenced | notFenced | staleEpoch | notAdmin | badField | outOfSpace
  | spansDomains | domainDenied | modeDenied | urgentDenied | durationTooLong | badWarn | selfConflict | busy
  | waitLimit | waitlistFull | noSuchLease | leaseEnded | notHolder | recalled | notExclusive | notShared
  | conflict | noSuchWait | waitEnded | queueEmpty | seqMismatch | noCursor | domainBusy | badOrder
  | limitBelowUse | domainInUse | unknownRequest
  deriving DecidableEq, Repr

/-- The outcome and body of a reply, as the rule that owns the request gives them. -/
structure Answer where
  outcome : ReplyOutcome
  body    : List Byte
  deriving DecidableEq, Repr

/-- A reply frame, less its length byte and CRC (R171, R173). -/
structure Reply where
  kind   : Byte
  seqTag : Byte
  answer : Answer
  deriving DecidableEq, Repr

/-- The slots of a port, and with them its state (R163): IDLE with both slots empty, PENDING with a request
in the request slot, ANSWERED with a reply in the reply slot. It never holds both. -/
inductive PortSlots where
  | idle
  | pending (request : Request)
  | answered (reply : Reply)
  deriving DecidableEq, Repr

/-- LAST_SEND, the judgment of the last completed SEND (R163, R166). -/
inductive LastSend where
  | good
  | crc
  | runt
  | long
  deriving DecidableEq, Repr

/-- What an open transaction captured at its falling edge (R164, R168): the status byte, and the reply frame
if the port was ANSWERED. -/
structure Opened where
  status : Byte
  reply  : Option (List Byte)
  deriving DecidableEq, Repr

/-- A port (chapter 11.2), with the pins of its link. -/
structure Port where
  slots    : PortSlots
  overrun  : Bool
  lastSend : LastSend
  /-- SEL# is low. -/
  selLow   : Bool
  /-- The transaction in progress, if one is open. -/
  opened   : Option Opened
  /-- MODEL'S OWN record of an output: the bits the port shifted on SDO in its last closed transaction. -/
  sdo      : List Bool
  deriving DecidableEq, Repr

/-! ### The state -/

structure State where
  /-- RST# is asserted (R172). -/
  rstAsserted  : Bool
  /-- The CLKSEL straps as sampled; the divisor of REFCLK follows from them (R81). -/
  clksel       : BitVec 2
  /-- REFCLK cycles counted since the last microsecond of the time base (the divider of R81). -/
  refPhase     : Nat
  /-- The tick period in microseconds; 0 is stopped (chapter 5.2). -/
  tickPeriod   : Nat
  /-- Microseconds elapsed in the current interval (chapter 5.2). -/
  elapsed      : Nat
  /-- The pending-tick count, 0 to 255 (R82). -/
  pendingTicks : Nat
  leases       : Vector LeaseSlot 64
  tokenCounter : Token
  /-- The wait list, head first. -/
  waiters      : List Waiter
  waitSlots    : Vector WaitSlot 24
  arrivals     : Arrival
  agents       : Vector AgentRecord 8
  access       : Vector AccessRecord 8
  domains      : Vector DomainRecord 16
  notices      : Vector NoticeState 8
  ports        : Vector Port 9
  /-- One query cursor for each agent port; none is closed (chapter 10.1). -/
  cursors      : Vector (Option Cursor) 8
  /-- The intake arbiter's last port served (R170). -/
  lastServed   : PortNo
  /-- The check port's denial count, 0 to 4,294,967,295 (R161). -/
  checkDenials : Nat
  /-- MODEL'S OWN: how many free values have been drawn (log entry 9). -/
  draws        : Nat
  /-- MODEL'S OWN: the commands that are waiting, first in, first out. -/
  pending      : List Instr
  deriving DecidableEq, Repr

/-- The block names no fault: no command stops it, so there is no constructor. -/
inductive Fault where
  deriving DecidableEq, Repr

/-- Why a command has no meaning. -/
inductive Refusal where
  /-- Raised by an arm of exec that has no meaning yet. Safe: the model stops. No arm raises it now. -/
  | notModelled (mnemonic : String)
  deriving DecidableEq, Repr

/-! ### Device reset -/

/-- R123: agent 0 starts as the admin, with the urgent right and the largest limits. -/
def AccessRecord.reset (k : AgentNo) : AccessRecord :=
  if k = 0 then
    { mask := 0xFFFF, exclusive := true, urgent := true, leaseLimit := 64, waitLimit := 8, admin := true }
  else
    { mask := 0xFFFF, exclusive := true, urgent := false, leaseLimit := 16, waitLimit := 4, admin := false }

/-- R112. -/
def AgentRecord.reset : AgentRecord :=
  { state := .detached, epoch := 0, leaseCount := 0, waitCount := 0, fenceCause := none, denials := 0 }

/-- R126. -/
def DomainRecord.reset : DomainRecord :=
  { bound := unitSpace, defaultDuration := 1000, maxDuration := 65535, defaultWarn := 0, recallGrace := 50,
    recallEnabled := true }

/-- Chapter 9.2 and R148. -/
def NoticeState.reset : NoticeState :=
  { queue := [], nextSeq := 0, mask := 0x7F, lost := false, lostCount := 0 }

/-- R163 and R172. SEL# idles high (log entry 5). -/
def Port.reset : Port :=
  { slots := .idle, overrun := false, lastSend := .good, selLow := false, opened := none, sdo := [] }

/-- The part after device reset: RST# is asserted, and every record holds the value its chapter gives (R18,
R59, R94, R111, R112, R123, R126, R148, R161, R172). RESET_RELEASE is the first command that acts on it. The
straps' value before they are sampled is a DESIGN CHOICE (log entry 2). -/
def State.reset : State :=
  { rstAsserted := true, clksel := 0, refPhase := 0, tickPeriod := 1000, elapsed := 0, pendingTicks := 0
    leases := Vector.replicate 64 { content := .free none, nextGen := 0 }
    tokenCounter := 1
    waiters := []
    waitSlots := Vector.replicate 24 { memory := none, nextGen := 0 }
    arrivals := 0
    agents := Vector.replicate 8 AgentRecord.reset
    access := Vector.ofFn AccessRecord.reset
    domains := Vector.replicate 16 DomainRecord.reset
    notices := Vector.replicate 8 NoticeState.reset
    ports := Vector.replicate 9 Port.reset
    cursors := Vector.replicate 8 none
    lastServed := checkPort
    checkDenials := 0
    draws := 0
    pending := [] }

end Sys2Proof.Machine
end

