-- ==== Sys2Proof/Machine/Operands.lean ====
section
/-! DEFINITION. The operand forms of the block: link bits and bytes, the CRC, request and reply frames, and
every field encoding and layout table of chapter 11 (R162, R166, R173, R174, 11.10). -/

namespace Sys2Proof.Machine

/-! ### Bits and bytes on a link (R162) -/

/-- Eight bits, most significant first. -/
def byteOfBits (b7 b6 b5 b4 b3 b2 b1 b0 : Bool) : Byte :=
  BitVec.ofNat 8 (128 * b7.toNat + 64 * b6.toNat + 32 * b5.toNat + 16 * b4.toNat + 8 * b3.toNat + 4 * b2.toNat
    + 2 * b1.toNat + b0.toNat)

/-- The whole bytes of a transaction; the bits after the last whole byte are discarded (R162). -/
def wholeBytes : List Bool → List Byte
  | b7 :: b6 :: b5 :: b4 :: b3 :: b2 :: b1 :: b0 :: rest =>
    byteOfBits b7 b6 b5 b4 b3 b2 b1 b0 :: wholeBytes rest
  | _ => []

/-- A byte as it travels, most significant bit first. -/
def bitsOfByte (b : Byte) : List Bool :=
  [b.getLsbD 7, b.getLsbD 6, b.getLsbD 5, b.getLsbD 4, b.getLsbD 3, b.getLsbD 2, b.getLsbD 1, b.getLsbD 0]

/-- A string of bytes as it travels. -/
def linkBits (bytes : List Byte) : List Bool :=
  bytes.flatMap bitsOfByte

/-- The bits the port shifts on SDO while n bits are clocked: the status byte, the payload, then 00h for any
further bytes (R164, R168). -/
def shiftOut (status : Byte) (payload : List Byte) (n : Nat) : List Bool :=
  (linkBits (status :: payload) ++ List.replicate n false).take n

/-- The transaction kinds (R164). -/
inductive TransactionKind where
  | send
  | collect
  | portReset
  deriving DecidableEq, Repr

def TransactionKind.code : TransactionKind → Byte
  | .send => 0x53
  | .collect => 0x43
  | .portReset => 0x52

/-- The kind that the first byte clocked names; none for a first byte of any other value, and where SEL# rises
before the first byte is complete (R164). -/
def transactionKind (bits : List Bool) : Option TransactionKind :=
  match wholeBytes bits with
  | b :: _ => [TransactionKind.send, .collect, .portReset].find? fun kind => decide (kind.code = b)
  | [] => none

/-! ### The CRC (R173) -/

/-- One bit of the CRC register under the generator x⁸ + x² + x + 1. -/
def crcShift (c : Byte) : Byte :=
  if c.getLsbD 7 then (c <<< 1) ^^^ 0x07 else c <<< 1

/-- One byte into the CRC register, bits taken most significant first. -/
def crcByte (c b : Byte) : Byte :=
  crcShift (crcShift (crcShift (crcShift (crcShift (crcShift (crcShift (crcShift (c ^^^ b))))))))

/-- The CRC of a string of bytes, from the initial value 0, with no final inversion. -/
def crc8 (bytes : List Byte) : Byte :=
  bytes.foldl crcByte 0

/-! ### Numbers, most significant byte first (R162) -/

def num1 (n : Nat) : List Byte := [BitVec.ofNat 8 n]

def num2 (n : Nat) : List Byte := [BitVec.ofNat 8 (n / 256), BitVec.ofNat 8 n]

def num3 (n : Nat) : List Byte := BitVec.ofNat 8 (n / 65536) :: num2 n

def num4 (n : Nat) : List Byte := BitVec.ofNat 8 (n / 16777216) :: num3 n

def num5 (n : Nat) : List Byte := BitVec.ofNat 8 (n / 4294967296) :: num4 n

/-- The number a string of bytes spells. -/
def natOfBytes (bytes : List Byte) : Nat :=
  bytes.foldl (fun n b => n * 256 + b.toNat) 0

/-! ### Fields (the field table of R174) -/

/-- Bits 15:10 slot, bits 9:0 generation. -/
def leaseIdNat (id : LeaseId) : Nat := id.slot.val * 1024 + id.gen.toNat

def leaseIdBytes (id : LeaseId) : List Byte := num2 (leaseIdNat id)

/-- Every 16-bit value names a lease id (R2). -/
def leaseIdOf (n : Nat) : LeaseId :=
  { slot := Fin.ofNat 64 (n / 1024), gen := BitVec.ofNat 10 n }

def waitIdNat (id : WaitId) : Nat := id.slot.val * 1024 + id.gen.toNat

def waitIdBytes (id : WaitId) : List Byte := num2 (waitIdNat id)

/-- A wait id that names a slot above 23 names no wait slot (R40). -/
def waitIdOf (n : Nat) : Option WaitId :=
  if h : n / 1024 < 24 then some { slot := ⟨n / 1024, h⟩, gen := BitVec.ofNat 10 n } else none

/-- An absent wait id in a record is FFFFh. -/
def optWaitIdBytes : Option WaitId → List Byte
  | some id => waitIdBytes id
  | none => [0xFF, 0xFF]

/-- Base in the upper 20 bits, count in the lower 20. -/
def rangeBytes (r : Range) : List Byte := num5 (r.base * unitSpace + r.count)

def rangeOf (bytes : List Byte) : Range :=
  { base := natOfBytes bytes / unitSpace, count := natOfBytes bytes % unitSpace }

def tokenBytes (t : Token) : List Byte := num4 t.toNat

/-- The optional tag's value is 0 when the tag is absent (R174; log entry 8). -/
def tagBytes : Option Tag → List Byte
  | some t => num2 t.toNat
  | none => [0, 0]

def yesNo (b : Bool) : List Byte := [if b then 1 else 0]

def yesNoOf (b : Byte) : Option Bool :=
  if b = 0 then some false else if b = 1 then some true else none

def modeOf (b : Byte) : Option Mode :=
  if b = 0 then some .shared else if b = 1 then some .exclusive else none

def priorityOf (b : Byte) : Option Priority :=
  if b = 0 then some .normal else if b = 1 then some .urgent else none

def accessOf (b : Byte) : Option Access :=
  if b = 0 then some .read else if b = 1 then some .write else none

def agentOf (b : Byte) : Option AgentNo :=
  if h : b.toNat < 8 then some ⟨b.toNat, h⟩ else none

def domainOfByte (b : Byte) : Option DomainNo :=
  if h : b.toNat < 16 then some ⟨b.toNat, h⟩ else none

def modeBit : Mode → Nat
  | .shared => 0
  | .exclusive => 1

def priorityBit : Priority → Nat
  | .normal => 0
  | .urgent => 1

def leaseStateBit : LeaseState → Nat
  | .live => 0
  | .recalled => 1

def endCauseCode : EndCause → Byte
  | .released => 0
  | .expired => 1
  | .revoked => 2
  | .detached => 3
  | .fenced => 4

def waitEndCode : WaitEnd → Byte
  | .granted _ => 0
  | .lapsed => 1
  | .cancelled => 2
  | .dropped => 3

def agentStateCode : AgentState → Byte
  | .detached => 0
  | .attached => 1
  | .fenced => 2

def blockedCode : Blocked → Byte
  | .conflict _ _ => 0
  | .earlierWaiter _ _ => 1
  | .agentLimit _ => 2
  | .tableFull => 3

/-- Deny reasons of the check port (chapter 10.5). -/
inductive DenyReason where
  | noToken
  | outOfRange
  | mode
  | agentFenced
  | notAttached
  | notCovered
  deriving DecidableEq, Repr

def denyCode : DenyReason → Byte
  | .noToken => 0
  | .outOfRange => 1
  | .mode => 2
  | .agentFenced => 3
  | .notAttached => 4
  | .notCovered => 5

/-- The three bytes of a blocker. -/
def blockerBytes : Blocked → List Byte
  | .conflict id holder => leaseIdBytes id ++ num1 holder.val
  | .earlierWaiter id agent => waitIdBytes id ++ num1 agent.val
  | .agentLimit limit => [0, 0] ++ num1 limit
  | .tableFull => [0, 0, 0]

/-- The blocked reason and its blocker, as BUSY, QUEUED and WAITLIST_FULL carry them. -/
def blockedBytes (b : Blocked) : List Byte := blockedCode b :: blockerBytes b

/-- The fence cause item of STATUS. -/
def fenceCauseBytes : Option FenceCause → List Byte
  | none => [0, 0, 0, 0]
  | some (.graceLapse id) => [1, 0] ++ leaseIdBytes id
  | some .evicted => [1, 1, 0, 0]

/-- Memory of an ended lease as LEASE_ENDED carries it: end cause, token, holder (R62, R105). -/
def leaseMemoryBytes (m : LeaseMemory) : List Byte :=
  endCauseCode m.cause :: (tokenBytes m.token ++ num1 m.holder.val)

/-- WAIT_ENDED: the cause, and the lease id as an optional item, present for GRANTED (R174). -/
def waitEndBytes (c : WaitEnd) : List Byte :=
  waitEndCode c :: (match c with
    | .granted id => 1 :: leaseIdBytes id
    | .lapsed | .cancelled | .dropped => [0, 0, 0])

/-- The access record in the order of R124's body. -/
def accessBytes (a : AccessRecord) : List Byte :=
  num2 a.mask.toNat ++ yesNo a.exclusive ++ yesNo a.urgent ++ num1 a.leaseLimit ++ num1 a.waitLimit ++ yesNo a.admin

/-- The domain record in the order of R130's body. -/
def domainBytes (d : DomainRecord) : List Byte :=
  num3 d.bound ++ num2 d.defaultDuration ++ num2 d.maxDuration ++ num2 d.defaultWarn ++ num2 d.recallGrace
    ++ yesNo d.recallEnabled

/-! ### Records in query replies and notices (11.10) -/

/-- A byte whose stated bits are known and whose other bits, those of the mask, are free (log entry 9). -/
def withFree (known : Nat) (mask : Byte) (free : Byte) : Byte :=
  BitVec.ofNat 8 known ||| (free &&& mask)

/-- Holder or agent (bits 7:5), domain (4:1), mode (0). -/
def holderByte (k : AgentNo) (d : DomainNo) (m : Mode) : List Byte :=
  num1 (k.val * 32 + d.val * 2 + modeBit m)

/-- The 24-byte lease record of the lease that stands in slot i. -/
def leaseRecordBytes (draw site : Nat) (i : LeaseIdx) (l : Lease) : List Byte :=
  leaseIdBytes { slot := i, gen := l.gen } ++ holderByte l.holder l.domain l.mode ++ rangeBytes l.range
    ++ [withFree (priorityBit l.priority + 2 * leaseStateBit l.state + 4 * l.tag.isSome.toNat) 0xF8
          (Config.freeByte draw (2 * site))]
    ++ tokenBytes l.token ++ num2 l.duration ++ num2 l.remaining ++ num2 l.warn ++ tagBytes l.tag
    ++ num1 l.renewals ++ optWaitIdBytes l.origin

def waitLeftBytes : WaitLeft → List Byte
  | .bounded n => num2 n
  | .unbounded => [0xFF, 0xFF]

/-- Byte 8 of a waiter record: priority (0), tag present (1), blocked reason (3:2), blocker's agent (6:4). -/
def waiterFlagByte (free : Byte) (w : Waiter) : Byte :=
  let low := priorityBit w.claim.priority + 2 * w.claim.tag.isSome.toNat + 4 * (blockedCode w.blocked).toNat
  match w.blocked with
  | .conflict _ k | .earlierWaiter _ k => withFree (low + 16 * k.val) 0x80 free
  | .agentLimit _ | .tableFull => withFree low 0xF0 free

/-- Bytes 21 and 22 of a waiter record. -/
def waiterBlockerBytes (free : Byte) : Blocked → List Byte
  | .conflict id _ => leaseIdBytes id
  | .earlierWaiter id _ => waitIdBytes id
  | .agentLimit limit => [free] ++ num1 limit
  | .tableFull => [0, 0]

/-- The 24-byte waiter record; place is the number of waiters ahead (R153). -/
def waiterRecordBytes (draw site : Nat) (w : Waiter) (place : Nat) : List Byte :=
  waitIdBytes w.id ++ holderByte w.claim.agent w.claim.domain w.claim.mode ++ rangeBytes w.claim.range
    ++ [waiterFlagByte (Config.freeByte draw (2 * site)) w]
    ++ num2 w.claim.duration ++ num2 w.claim.warn ++ tagBytes w.claim.tag ++ waitLeftBytes w.left
    ++ num4 w.arrival.toNat ++ waiterBlockerBytes (Config.freeByte draw (2 * site + 1)) w.blocked ++ num1 place

def noticeKindCode : Notice → Nat
  | .granted .. => 1
  | .warn .. => 2
  | .recall .. => 3
  | .expired .. => 4
  | .revoked .. => 5
  | .waitLapsed .. => 6
  | .fenced .. => 7

/-- Bits 3:0 of byte 2 of a notice record: tag present, lease id present, EXCLUSIVE, EVICTED. -/
def noticeFlagBits : Notice → Nat
  | .granted _ _ _ mode _ tag => tag.isSome.toNat + 2 + 4 * modeBit mode
  | .warn .. | .recall .. => 2
  | .expired _ tag | .revoked _ tag => tag.isSome.toNat + 2
  | .waitLapsed _ tag => tag.isSome.toNat
  | .fenced (.graceLapse _) _ _ => 2
  | .fenced .evicted _ _ => 8

/-- Bytes 3 to 20 of a notice record; bytes a kind does not use read 00h. -/
def noticeFieldBytes : Notice → List Byte
  | .granted wait lease token _ range tag =>
    leaseIdBytes lease ++ waitIdBytes wait ++ tokenBytes token ++ rangeBytes range ++ tagBytes tag ++ [0, 0, 0]
  | .warn lease remaining => leaseIdBytes lease ++ List.replicate 13 0 ++ num2 remaining ++ [0]
  | .recall lease remaining requester =>
    leaseIdBytes lease ++ List.replicate 13 0 ++ num2 remaining ++ num1 requester.val
  | .expired lease tag | .revoked lease tag => leaseIdBytes lease ++ List.replicate 11 0 ++ tagBytes tag ++ [0, 0, 0]
  | .waitLapsed wait tag => [0, 0] ++ waitIdBytes wait ++ List.replicate 9 0 ++ tagBytes tag ++ [0, 0, 0]
  | .fenced (.graceLapse lease) ended dropped =>
    leaseIdBytes lease ++ List.replicate 13 0 ++ num1 ended ++ num1 dropped ++ [0]
  | .fenced .evicted ended dropped => List.replicate 15 0 ++ num1 ended ++ num1 dropped ++ [0]

/-- The 21-byte notice record. -/
def noticeRecordBytes (draw : Nat) (n : NoticeRecord) : List Byte :=
  num1 (noticeKindCode n.notice) ++ [n.seq, withFree (noticeFlagBits n.notice) 0xF0 (Config.freeByte draw 0)]
    ++ noticeFieldBytes n.notice

/-! ### Request kinds (the table of 11.10) -/

inductive ReqKind where
  | acquire | cancel | renew | trim | downgrade | upgrade | release | setTick | forceRevoke | evict
  | attach | detach | resync | setAccess | configDomain | domainInfo | noticeRead | noticeAck | setNoticeMask
  | query | queryNext | status | checkToken | checkAgent
  deriving DecidableEq, Repr

def ReqKind.code : ReqKind → Byte
  | .acquire => 0x01 | .cancel => 0x02 | .renew => 0x03 | .trim => 0x04
  | .downgrade => 0x05 | .upgrade => 0x06 | .release => 0x07 | .setTick => 0x08
  | .forceRevoke => 0x09 | .evict => 0x0A | .attach => 0x0B | .detach => 0x0C
  | .resync => 0x0D | .setAccess => 0x0E | .configDomain => 0x0F | .domainInfo => 0x10
  | .noticeRead => 0x11 | .noticeAck => 0x12 | .setNoticeMask => 0x13 | .query => 0x14
  | .queryNext => 0x15 | .status => 0x16 | .checkToken => 0x17 | .checkAgent => 0x18

def ReqKind.bodyLength : ReqKind → Nat
  | .acquire => 16 | .cancel => 2 | .renew => 4 | .trim => 7
  | .downgrade => 2 | .upgrade => 2 | .release => 2 | .setTick => 2
  | .forceRevoke => 2 | .evict => 1 | .attach => 0 | .detach => 0
  | .resync => 0 | .setAccess => 8 | .configDomain => 13 | .domainInfo => 1
  | .noticeRead => 0 | .noticeAck => 1 | .setNoticeMask => 1 | .query => 7
  | .queryNext => 0 | .status => 0 | .checkToken => 8 | .checkAgent => 5

/-- The kinds an agent port may send: codes 01h to 16h (R116 check 1, R117). -/
def agentMaySend (kind : Byte) : Bool := 0x01 ≤ kind && kind ≤ 0x16

/-- The kinds the check port may send: STATUS, CHECK_TOKEN, CHECK_AGENT (R117). -/
def checkPortMaySend (kind : Byte) : Bool := 0x16 ≤ kind && kind ≤ 0x18

/-- The kinds the notice unit takes (R170). -/
def isNoticeKind (kind : Byte) : Bool := 0x11 ≤ kind && kind ≤ 0x13

/-- The admin requests (R116). -/
def ReqKind.isAdmin : ReqKind → Bool
  | .setTick | .forceRevoke | .evict | .setAccess | .configDomain => true
  | _ => false

/-- The kinds the epoch check skips (R115). -/
def ReqKind.skipsEpoch : ReqKind → Bool
  | .attach | .resync | .status => true
  | _ => false

/-- The kinds a FENCED agent may send: R116's list for the engine, and the notice requests (R117). -/
def ReqKind.admittedFenced : ReqKind → Bool
  | .resync | .detach | .status | .query | .queryNext | .noticeRead | .noticeAck | .setNoticeMask => true
  | _ => false

/-! ### Frames (R166, R173) -/

def ReplyOutcome.code : ReplyOutcome → Byte
  | .none => 0x00 | .ok => 0x01 | .granted => 0x02 | .queued => 0x03
  | .cancelled => 0x04 | .allow => 0x05 | .deny => 0x06 | .endOfQuery => 0x07
  | .notAttached => 0x20 | .alreadyAttached => 0x21 | .fenced => 0x22 | .notFenced => 0x23
  | .staleEpoch => 0x24 | .notAdmin => 0x25 | .badField => 0x26 | .outOfSpace => 0x27
  | .spansDomains => 0x28 | .domainDenied => 0x29 | .modeDenied => 0x2A | .urgentDenied => 0x2B
  | .durationTooLong => 0x2C | .badWarn => 0x2D | .selfConflict => 0x2E | .busy => 0x2F
  | .waitLimit => 0x30 | .waitlistFull => 0x31 | .noSuchLease => 0x32 | .leaseEnded => 0x33
  | .notHolder => 0x34 | .recalled => 0x35 | .notExclusive => 0x36 | .notShared => 0x37
  | .conflict => 0x38 | .noSuchWait => 0x39 | .waitEnded => 0x3A | .queueEmpty => 0x3B
  | .seqMismatch => 0x3C | .noCursor => 0x3D | .domainBusy => 0x3E | .badOrder => 0x3F
  | .limitBelowUse => 0x40 | .domainInUse => 0x41 | .unknownRequest => 0x42

/-- A frame closed by its CRC. -/
def withCrc (bytes : List Byte) : List Byte := bytes ++ [crc8 bytes]

/-- A request frame as its sender shifts it. -/
def requestFrame (r : Request) : List Byte :=
  withCrc ([r.kind, r.seqTag] ++ num2 r.epoch.toNat ++ num1 r.body.length ++ r.body)

/-- A reply frame as the port shifts it. -/
def replyFrame (r : Reply) : List Byte :=
  withCrc ([r.kind, r.seqTag, r.answer.outcome.code] ++ num1 r.answer.body.length ++ r.answer.body)

/-- What a COLLECT shifts when there is no reply (R168). -/
def emptyMarker : List Byte := [0, 0, 0, 0, 0]

/-- How a SEND's bytes are judged (R166). -/
inductive Judgment where
  | runt
  | long
  | crc
  | good (request : Request)
  deriving DecidableEq, Repr

/-- R166's judgment of the bytes received after the kind byte, in its order. The frame is five header bytes,
of which the fifth is the body length, then rest: the body and the CRC byte. -/
def judgeFrame : List Byte → Judgment
  | kind :: seqTag :: e1 :: e0 :: len :: rest =>
    if rest.length < len.toNat + 1 then .runt
    else if 32 < len.toNat ∨ len.toNat + 1 < rest.length then .long
    else if rest.drop len.toNat ≠ [crc8 ([kind, seqTag, e1, e0, len] ++ rest.take len.toNat)] then .crc
    else .good { kind, seqTag, epoch := e1 ++ e0, body := rest.take len.toNat }
  | _ => .runt

/-! ### Request bodies -/

/-- The fields of an ACQUIRE body (R21). -/
structure AcquireFields where
  range     : Range
  mode      : Mode
  priority  : Priority
  duration  : Nat
  warn      : Nat
  waitLimit : Nat
  tag       : Option Tag
  deriving DecidableEq, Repr

/-- A range a request may ask for (R21): a count of at least 1, ending within the unit space. -/
def rangeValid (r : Range) : Bool :=
  0 < r.count && r.base + r.count ≤ unitSpace

/-- The ACQUIRE body; none where check 1 of R23 fails. -/
def acquireFieldsOf : List Byte → Option AcquireFields
  | [r0, r1, r2, r3, r4, m, p, d1, d0, w1, w0, l1, l0, tp, t1, t0] =>
    let range := rangeOf [r0, r1, r2, r3, r4]
    match modeOf m, priorityOf p, yesNoOf tp with
    | some mode, some priority, some tagged =>
      if rangeValid range then
        some { range, mode, priority, duration := natOfBytes [d1, d0], warn := natOfBytes [w1, w0]
               waitLimit := natOfBytes [l1, l0], tag := if tagged then some (t1 ++ t0) else none }
      else none
    | _, _, _ => none
  | _ => none

/-- The SET_ACCESS body; none where check 6 of R124 fails. -/
def accessFieldsOf : List Byte → Option (AgentNo × AccessRecord)
  | [k, m1, m0, e, u, ll, wl, a] =>
    match agentOf k, yesNoOf e, yesNoOf u, yesNoOf a with
    | some k, some exclusive, some urgent, some admin =>
      if 1 ≤ ll.toNat ∧ ll.toNat ≤ 64 ∧ 1 ≤ wl.toNat ∧ wl.toNat ≤ 8 then
        some (k, { mask := m1 ++ m0, exclusive, urgent, leaseLimit := ll.toNat, waitLimit := wl.toNat, admin })
      else none
    | _, _, _, _ => none
  | _ => none

/-- The CONFIG_DOMAIN body; none where check 6 or 7 of R130 fails. -/
def domainFieldsOf : List Byte → Option (DomainNo × DomainRecord)
  | [d, b2, b1, b0, dd1, dd0, md1, md0, dw1, dw0, g1, g0, en] =>
    match domainOfByte d, yesNoOf en with
    | some d, some recallEnabled =>
      let r : DomainRecord :=
        { bound := natOfBytes [b2, b1, b0], defaultDuration := natOfBytes [dd1, dd0]
          maxDuration := natOfBytes [md1, md0], defaultWarn := natOfBytes [dw1, dw0]
          recallGrace := natOfBytes [g1, g0], recallEnabled }
      if r.bound ≤ unitSpace ∧ 1 ≤ r.defaultDuration ∧ 1 ≤ r.maxDuration ∧ 1 ≤ r.recallGrace
          ∧ r.defaultDuration ≤ r.maxDuration ∧ r.defaultWarn < r.defaultDuration then some (d, r)
      else none
    | _, _ => none
  | _ => none

/-- The QUERY body; none where R150's check fails. The code ANY is FFh; unused fields are ignored. -/
def filterOf : List Byte → Option Filter
  | [f, k, r0, r1, r2, r3, r4] =>
    let range := rangeOf [r0, r1, r2, r3, r4]
    if f = 0 then if rangeValid range then some (.byRange range) else none
    else if f = 1 then (agentOf k).map .byAgent
    else if f = 2 then if k = 0xFF then some (.waits none) else (agentOf k).map (.waits ∘ some)
    else none
  | _ => none

/-- The CHECK_TOKEN body; none where R159's field check fails. -/
def checkTokenFieldsOf : List Byte → Option (Token × Nat × Access)
  | [t3, t2, t1, t0, u2, u1, u0, a] =>
    match accessOf a with
    | some access =>
      let u := natOfBytes [u2, u1, u0]
      if u < unitSpace then some (BitVec.ofNat 32 (natOfBytes [t3, t2, t1, t0]), u, access) else none
    | none => none
  | _ => none

/-- The CHECK_AGENT body; none where R160's field check fails. -/
def checkAgentFieldsOf : List Byte → Option (AgentNo × Nat × Access)
  | [k, u2, u1, u0, a] =>
    match agentOf k, accessOf a with
    | some k, some access =>
      let u := natOfBytes [u2, u1, u0]
      if u < unitSpace then some (k, u, access) else none
    | _, _ => none
  | _ => none

end Sys2Proof.Machine
end

