-- ==== Sys2Proof/Machine/Ops.lean ====
section
/-! DEFINITION. The named operations of the block: reading and writing its records, the lease table's search,
grants and ends, the wait list's queueing, departures and re-examination, recall, fencing, the countdowns and
the timer. Every command is built from these. -/

namespace Sys2Proof.Machine

/-! ### Reading and writing one record -/

/-- The content of lease slot i. -/
def State.lease (s : State) (i : LeaseIdx) : SlotContent := s.leases[i].content

def State.setLease (s : State) (i : LeaseIdx) (c : SlotContent) : State :=
  { s with leases := s.leases.set i { s.leases[i] with content := c } }

/-- The lease id of a record placed in slot i now (R2). -/
def State.nextLeaseId (s : State) (i : LeaseIdx) : LeaseId := { slot := i, gen := s.leases[i].nextGen }

def State.agent (s : State) (k : AgentNo) : AgentRecord := s.agents[k]

def State.setAgent (s : State) (k : AgentNo) (a : AgentRecord) : State :=
  { s with agents := s.agents.set k a }

def State.accessOf (s : State) (k : AgentNo) : AccessRecord := s.access[k]

def State.setAccessOf (s : State) (k : AgentNo) (a : AccessRecord) : State :=
  { s with access := s.access.set k a }

def State.domain (s : State) (d : DomainNo) : DomainRecord := s.domains[d]

def State.setDomain (s : State) (d : DomainNo) (r : DomainRecord) : State :=
  { s with domains := s.domains.set d r }

def State.notice (s : State) (k : AgentNo) : NoticeState := s.notices[k]

def State.setNotice (s : State) (k : AgentNo) (n : NoticeState) : State :=
  { s with notices := s.notices.set k n }

def State.port (s : State) (p : PortNo) : Port := s.ports[p]

def State.setPort (s : State) (p : PortNo) (q : Port) : State :=
  { s with ports := s.ports.set p q }

def State.cursor (s : State) (k : AgentNo) : Option Cursor := s.cursors[k]

def State.setCursor (s : State) (k : AgentNo) (c : Option Cursor) : State :=
  { s with cursors := s.cursors.set k c }

def State.waitSlot (s : State) (i : WaitIdx) : WaitSlot := s.waitSlots[i]

def State.setWaitSlot (s : State) (i : WaitIdx) (w : WaitSlot) : State :=
  { s with waitSlots := s.waitSlots.set i w }

/-- The intake arbiter's pointer moves to the port it serves (R170). -/
def State.serve (s : State) (p : PortNo) : State := { s with lastServed := p }

/-! ### Ranges and conflict (00_scope.md, 4.1) -/

/-- The first unit after a range. -/
def rangeEnd (r : Range) : Nat := r.base + r.count

/-- Two ranges overlap when each starts below the other's end. -/
def overlaps (a b : Range) : Bool :=
  decide (a.base < rangeEnd b) && decide (b.base < rangeEnd a)

/-- Two holdings conflict when their ranges overlap and at least one is EXCLUSIVE. -/
def conflicts (a : Range) (ma : Mode) (b : Range) (mb : Mode) : Bool :=
  overlaps a b && (decide (ma = .exclusive) || decide (mb = .exclusive))

/-- A unit is covered by a range (R8). -/
def covers (r : Range) (u : Nat) : Bool :=
  decide (r.base ≤ u) && decide (u < rangeEnd r)

/-- READ is permitted by either mode, WRITE by EXCLUSIVE only (chapter 10.5). -/
def permits (m : Mode) (a : Access) : Bool :=
  decide (a = .read) || decide (m = .exclusive)

/-! ### The lease table (chapter 1) -/

/-- Every live lease with its slot, in ascending slot order. -/
def liveLeases (s : State) : List (LeaseIdx × Lease) :=
  (List.finRange 64).filterMap fun i =>
    match s.lease i with
    | .held l => some (i, l)
    | .free _ => none

/-- The overlap search of R8, without a mode. -/
def overlapSearch (s : State) (r : Range) : List (LeaseIdx × Lease) :=
  (liveLeases s).filter fun p => overlaps p.2.range r

/-- The conflict search of R8: the search with a mode. -/
def conflictSearch (s : State) (r : Range) (m : Mode) : List (LeaseIdx × Lease) :=
  (liveLeases s).filter fun p => conflicts p.2.range p.2.mode r m

/-- The slots whose live lease agent k holds, ascending. -/
def holdings (s : State) (k : AgentNo) : List LeaseIdx :=
  ((liveLeases s).filter fun p => decide (p.2.holder = k)).map (·.1)

/-- The lease id of a live lease in slot i. -/
def leaseIdAt (i : LeaseIdx) (l : Lease) : LeaseId := { slot := i, gen := l.gen }

/-- The lowest-numbered FREE slot (R10). -/
def freeLeaseSlot (s : State) : Option LeaseIdx :=
  (List.finRange 64).find? fun i =>
    match s.lease i with
    | .free _ => true
    | .held _ => false

/-- The number of FREE slots, as STATUS reports it (R1). -/
def freeLeaseSlots (s : State) : Nat := 64 - (liveLeases s).length

/-- The three results of resolving a lease id (R3). -/
inductive LeaseResolution where
  | live (lease : Lease)
  | ended (memory : LeaseMemory)
  | noLease
  deriving DecidableEq, Repr

/-- R3. -/
def resolveLease (s : State) (id : LeaseId) : LeaseResolution :=
  match s.lease id.slot with
  | .held l => if l.gen = id.gen then .live l else .noLease
  | .free (some m) => if m.gen = id.gen then .ended m else .noLease
  | .free none => .noLease

/-- A token is carried by a live lease. -/
def tokenHeld (s : State) (t : Token) : Bool :=
  (liveLeases s).any fun p => decide (p.2.token = t)

/-- One step of the token counter, from 4,294,967,295 to 1 (R12). -/
def nextToken (t : Token) : Token := if t = 0xFFFFFFFF then 1 else t + 1

/-- The token counter steps at least once and goes on while the value is held; 64 steps suffice (R12). -/
def advanceToken (held : Token → Bool) : Nat → Token → Token
  | 0, t => t
  | n + 1, t => if held (nextToken t) then advanceToken held n (nextToken t) else nextToken t

/-- The record a grant builds (R4). -/
def leaseOfClaim (c : Claim) (gen : Gen) (token : Token) : Lease :=
  { gen, holder := c.agent, domain := c.domain, range := c.range, mode := c.mode, priority := c.priority, token
    duration := c.duration, remaining := c.duration, warn := c.warn, tag := c.tag, state := .live, renewals := 0
    origin := none }

/-- A grant places the record in slot i under the slot's next generation, which advances (R2), discards the
slot's memory, counts the lease to its holder, and takes and advances the token counter (R4, R12). -/
def placeLease (c : Claim) (i : LeaseIdx) (s : State) : State :=
  let gen := s.leases[i].nextGen
  let t := { s with
    leases := s.leases.set i { content := .held (leaseOfClaim c gen s.tokenCounter), nextGen := gen + 1 }
    agents := s.agents.set c.agent { s.agent c.agent with leaseCount := (s.agent c.agent).leaseCount + 1 } }
  { t with tokenCounter := advanceToken (tokenHeld t) 64 s.tokenCounter }

/-- The first three steps of every lease end (R14); the notice, where the cause has one, is posted after. -/
def endLease (cause : EndCause) (i : LeaseIdx) (s : State) : State :=
  match s.lease i with
  | .free _ => s
  | .held l =>
    let a := s.agent l.holder
    (s.setLease i (.free (some { gen := l.gen, cause, token := l.token, holder := l.holder }))).setAgent l.holder
      { a with leaseCount := a.leaseCount - 1 }

/-- Every live lease of agent k ends, in ascending slot order (R101 step 2, R120 step 2). -/
def endLeasesOf (k : AgentNo) (cause : EndCause) (s : State) : State :=
  (holdings s k).foldl (fun s i => endLease cause i s) s

/-! ### Notices (chapter 9) -/

/-- R139: the notice takes the next number, and is stored, or dropped and counted lost. -/
def storeNotice (n : Notice) (q : NoticeState) : NoticeState :=
  let seq := q.nextSeq
  if q.queue.length < 8 then
    { q with queue := q.queue ++ [{ seq, notice := n }], nextSeq := seq + 1 }
  else
    { q with nextSeq := seq + 1, lost := true, lostCount := if q.lostCount < 255 then q.lostCount + 1 else 255 }

/-- A post to agent k (R139). -/
def postNotice (k : AgentNo) (n : Notice) (s : State) : State :=
  s.setNotice k (storeNotice n (s.notice k))

/-! ### The wait list (chapter 3) -/

/-- A wait slot is occupied when a waiter of the list stands in it (R39). -/
def waitOccupied (s : State) (i : WaitIdx) : Bool :=
  s.waiters.any fun w => decide (w.id.slot = i)

/-- The lowest-numbered empty wait slot (R40). -/
def freeWaitSlot (s : State) : Option WaitIdx :=
  (List.finRange 24).find? fun i => !waitOccupied s i

/-- The waiter in the list under a wait id. -/
def findWaiter (s : State) (id : WaitId) : Option Waiter :=
  s.waiters.find? fun w => decide (w.id = id)

/-- The results of resolving a wait id (R41). -/
inductive WaitResolution where
  | waiting (waiter : Waiter)
  | ended (memory : WaitMemory)
  | noWaiter
  deriving DecidableEq, Repr

/-- R41. -/
def resolveWait (s : State) (id : WaitId) : WaitResolution :=
  match findWaiter s id with
  | some w => .waiting w
  | none =>
    if waitOccupied s id.slot then .noWaiter
    else match (s.waitSlot id.slot).memory with
      | some m => if m.gen = id.gen then .ended m else .noWaiter
      | none => .noWaiter

def isUrgent (w : Waiter) : Bool := decide (w.claim.priority = .urgent)

/-- The waiters of equal or higher class, which a request of a class would find ahead of it if queued
(condition (b) of R28, R29). -/
def aheadOfClass (p : Priority) (ws : List Waiter) : List Waiter :=
  match p with
  | .normal => ws
  | .urgent => ws.filter isUrgent

/-- R44: a new waiter goes directly after the last waiter of its class. -/
def insertWaiter (w : Waiter) (ws : List Waiter) : List Waiter :=
  match w.claim.priority with
  | .normal => ws ++ [w]
  | .urgent => ws.takeWhile isUrgent ++ w :: ws.dropWhile isUrgent

/-- The waiters ahead of the one with a wait id. -/
def aheadOf (id : WaitId) (ws : List Waiter) : List Waiter :=
  ws.takeWhile fun w => decide (w.id ≠ id)

/-- A waiter's wait remaining at queueing (R34): 65,535 is UNBOUNDED. -/
def waitLeftOf (limit : Nat) : WaitLeft := if limit = 65535 then .unbounded else .bounded limit

/-- The waiter record that queueing builds in wait slot i (R42). -/
def newWaiter (c : Claim) (limit : Nat) (b : Blocked) (i : WaitIdx) (s : State) : Waiter :=
  { id := { slot := i, gen := (s.waitSlot i).nextGen }, claim := c, left := waitLeftOf limit, arrival := s.arrivals
    blocked := b }

/-- R42: the waiter takes its slot and generation, the memory is discarded, the counters advance. -/
def queueWaiter (w : Waiter) (s : State) : State :=
  let a := s.agent w.claim.agent
  { (s.setWaitSlot w.id.slot { memory := none, nextGen := w.id.gen + 1 }).setAgent w.claim.agent
      { a with waitCount := a.waitCount + 1 } with
    waiters := insertWaiter w s.waiters
    arrivals := s.arrivals + 1 }

/-- The first three steps of every departure from the list (R46). -/
def depart (cause : WaitEnd) (w : Waiter) (s : State) : State :=
  let a := s.agent w.claim.agent
  { (s.setWaitSlot w.id.slot
        { s.waitSlot w.id.slot with memory := some { gen := w.id.gen, cause, agent := w.claim.agent } }).setAgent
      w.claim.agent { a with waitCount := a.waitCount - 1 } with
    waiters := s.waiters.filter fun v => decide (v.id ≠ w.id) }

/-- Change the waiter with a wait id in its place. -/
def updateWaiter (id : WaitId) (f : Waiter → Waiter) (s : State) : State :=
  { s with waiters := s.waiters.map fun w => if w.id = id then f w else w }

/-- The waiters of agent k, in list order. -/
def waitersOf (s : State) (k : AgentNo) : List Waiter :=
  s.waiters.filter fun w => decide (w.claim.agent = k)

/-- Every waiter of agent k leaves DROPPED, in list order (R53). -/
def dropWaitersOf (k : AgentNo) (s : State) : State :=
  (waitersOf s k).foldl (fun s w => depart .dropped w s) s

/-! ### Grants (R28, R47, R48) -/

/-- The result of testing the four grant conditions: a FREE slot, or the first failure with its blocker. -/
inductive Verdict where
  | grantable (slot : LeaseIdx)
  | blocked (why : Blocked)
  deriving DecidableEq, Repr

/-- The four grant conditions (a) to (d) in order, against the waiters given as ahead (R28, R47, R49). -/
def grantVerdict (s : State) (c : Claim) (ahead : List Waiter) : Verdict :=
  match (conflictSearch s c.range c.mode).head? with
  | some (i, l) => .blocked (.conflict (leaseIdAt i l) l.holder)
  | none =>
    match ahead.find? fun w => conflicts w.claim.range w.claim.mode c.range c.mode with
    | some w => .blocked (.earlierWaiter w.id w.claim.agent)
    | none =>
      if (s.agent c.agent).leaseCount < (s.accessOf c.agent).leaseLimit then
        match freeLeaseSlot s with
        | some i => .grantable i
        | none => .blocked .tableFull
      else .blocked (.agentLimit (s.accessOf c.agent).leaseLimit)

/-- R48: the lease is built, the waiter leaves GRANTED, and the GRANTED notice is posted. -/
def grantWaiter (w : Waiter) (i : LeaseIdx) (s : State) : State :=
  let id := s.nextLeaseId i
  postNotice w.claim.agent (.granted w.id id s.tokenCounter w.claim.mode w.claim.range w.claim.tag)
    (depart (.granted id) w (placeLease w.claim i s))

/-- One waiter of the walk: granted, or left with its blocked reason and blocker rewritten (R47 to R49). -/
def examine (w : Waiter) (s : State) : State × Bool :=
  match grantVerdict s w.claim (aheadOf w.id s.waiters) with
  | .grantable i => (grantWaiter w i s, true)
  | .blocked b => (updateWaiter w.id (fun v => { v with blocked := b }) s, false)

/-- The walk over the waiters that stood in the list, in order, with the number granted. -/
def walk : List Waiter → State → State × Nat
  | [], s => (s, 0)
  | w :: ws, s =>
    let r := examine w s
    let q := walk ws r.1
    (q.1, r.2.toNat + q.2)

/-- One re-examination of the wait list (R47). -/
def reexamine (s : State) : State × Nat := walk s.waiters s

/-! ### Recall (chapter 6.1) -/

/-- The three conditions of R95 on a lease the search returns. -/
def recallable (w : Waiter) (l : Lease) : Bool :=
  decide (l.state = .live) && decide (l.priority = .normal) && decide (l.holder ≠ w.claim.agent)

/-- The leases that the queueing of w recalls, in ascending slot order (R95). -/
def recallTargets (s : State) (w : Waiter) : List (LeaseIdx × Lease) :=
  (conflictSearch s w.claim.range w.claim.mode).filter fun p => recallable w p.2

/-- The four steps of R96 on one lease. -/
def recallLease (w : Waiter) (grace : Nat) (p : LeaseIdx × Lease) (s : State) : State :=
  let left := min p.2.remaining grace
  postNotice p.2.holder (.recall (leaseIdAt p.1 p.2) left w.claim.agent)
    (s.setLease p.1 (.held { p.2 with state := .recalled, origin := some w.id, remaining := left }))

/-- R95: recall runs for a new URGENT waiter in a domain with recall enabled; it answers how many leases it
recalled (R97). -/
def recallFor (w : Waiter) (s : State) : State × Nat :=
  if w.claim.priority = .urgent ∧ (s.domain w.claim.domain).recallEnabled = true then
    ((recallTargets s w).foldl (fun s p => recallLease w (s.domain w.claim.domain).recallGrace p s) s,
      (recallTargets s w).length)
  else (s, 0)

/-! ### Fencing (R101) -/

/-- R101, on an ATTACHED agent; the re-examination is left to the action that fences. -/
def fence (k : AgentNo) (cause : FenceCause) (s : State) : State :=
  match (s.agent k).state with
  | .attached =>
    let s1 := s.setAgent k { s.agent k with state := .fenced, fenceCause := some cause }
    let s2 := endLeasesOf k .fenced s1
    let s3 := dropWaitersOf k s2
    postNotice k (.fenced cause (holdings s1 k).length (waitersOf s2 k).length) (s3.setCursor k none)
  | .detached | .fenced => s

/-! ### The countdowns of a tick (chapters 3.6 and 5.4) -/

/-- R90: a LIVE lease at zero ends EXPIRED and its holder is told. -/
def expireLease (i : LeaseIdx) (l : Lease) (s : State) : State :=
  postNotice l.holder (.expired (leaseIdAt i l) l.tag) (endLease .expired i s)

/-- R100: a RECALLED lease at zero ends REVOKED and its holder is fenced. -/
def lapseGrace (i : LeaseIdx) (l : Lease) (s : State) : State :=
  fence l.holder (.graceLapse (leaseIdAt i l)) (endLease .revoked i s)

/-- R89: a LIVE lease brought to its non-zero warn mark is posted a WARN. -/
def warns (l : Lease) : Bool :=
  decide (l.state = .live) && decide (l.warn ≠ 0) && decide (l.remaining - 1 = l.warn)

/-- The countdown at one slot, read as the countdown so far has left it (R88 to R91). -/
def countdownSlot (i : LeaseIdx) (s : State) : State :=
  match s.lease i with
  | .free _ => s
  | .held l =>
    if l.remaining ≤ 1 then
      match l.state with
      | .live => expireLease i l s
      | .recalled => lapseGrace i l s
    else
      let s1 := s.setLease i (.held { l with remaining := l.remaining - 1 })
      if warns l then postNotice l.holder (.warn (leaseIdAt i l) (l.remaining - 1)) s1 else s1

/-- Stage 1 of a tick: every slot in ascending order (R88). -/
def leaseCountdown (s : State) : State :=
  (List.finRange 64).foldl (fun s i => countdownSlot i s) s

/-- R52: a lapse, and the WAIT_LAPSED notice. -/
def lapseWaiter (w : Waiter) (s : State) : State :=
  postNotice w.claim.agent (.waitLapsed w.id w.claim.tag) (depart .lapsed w s)

/-- The wait countdown at one waiter (R51). -/
def countdownWaiter (w : Waiter) (s : State) : State :=
  match w.left with
  | .unbounded => s
  | .bounded n =>
    if n ≤ 1 then lapseWaiter w s else updateWaiter w.id (fun v => { v with left := .bounded (n - 1) }) s

/-- Stage 2 of a tick: the waiters left by stage 1, from the head (R51). -/
def waitCountdown (s : State) : State :=
  s.waiters.foldl (fun s w => countdownWaiter w s) s

/-- The three stages of a tick (R51). -/
def tickStages (s : State) : State :=
  (reexamine (waitCountdown (leaseCountdown s))).1

/-! ### The domain map (chapter 8) -/

/-- Lookup: the lowest domain whose bound is above the unit (R127). -/
def domainOf (s : State) (u : Nat) : Option DomainNo :=
  (List.finRange 16).find? fun d => decide (u < (s.domain d).bound)

/-- The first unit of a domain: its predecessor's bound, or 0 (R127). -/
def firstUnit (s : State) (d : DomainNo) : Nat :=
  if d = 0 then 0 else (s.domain (d - 1)).bound

/-- The highest bound check 8 allows domain d (R131). -/
def highestBound (s : State) (d : DomainNo) : Nat :=
  if d = 15 then unitSpace else (s.domain (d + 1)).bound

/-- The live leases and the waiters whose Domain field is d (R132, R135). -/
def leasesIn (s : State) (d : DomainNo) : Nat :=
  ((liveLeases s).filter fun p => decide (p.2.domain = d)).length

def waitersIn (s : State) (d : DomainNo) : Nat :=
  (s.waiters.filter fun w => decide (w.claim.domain = d)).length

def domainIdle (s : State) (d : DomainNo) : Bool :=
  decide (leasesIn s d = 0) && decide (waitersIn s d = 0)

/-! ### The lease timer (chapter 5) -/

/-- The divisor of REFCLK that the sampled straps select: 8, 16, 24 or 32 (R81). -/
def divisor (s : State) : Nat := 8 * (s.clksel.toNat + 1)

/-- The interval runs out (R82): one tick is produced, lost at 255, and the next interval begins. -/
def expireInterval (s : State) : State :=
  { s with
    elapsed := 0
    refPhase := 0
    pendingTicks := if s.pendingTicks < 255 then s.pendingTicks + 1 else 255 }

/-- One cycle of REFCLK passes (R81, R82): every divisor-th cycle is a microsecond, and the interval counts
it; with the period reached the interval runs out. Nothing is counted while RST# is asserted or the period
is 0 (R85, R94). -/
def passRefclk (s : State) : State :=
  if s.rstAsserted = true ∨ s.tickPeriod = 0 then s
  else if s.refPhase + 1 < divisor s then { s with refPhase := s.refPhase + 1 }
  else if s.elapsed + 1 < s.tickPeriod then { s with refPhase := 0, elapsed := s.elapsed + 1 }
  else expireInterval s

end Sys2Proof.Machine
end

