-- ==== Sys2Proof/Machine/Flags.lean ====
section
/-! DEFINITION. The flags and lines of the block: the notice line NOTE#, the drive of SDO, the port status byte,
and the checks common to every request, which read the agent's state, epoch and admin right (R116, R117, R145,
R162, R165). -/

namespace Sys2Proof.Machine

/-- Bit n - 1 of the mask is for kind code n (R144). -/
def maskedIn (mask : BitVec 7) (n : Notice) : Bool := mask.getLsbD (noticeKindCode n - 1)

/-- NOTEk# is asserted (R145); while RST# is asserted every line is released (R172). -/
def noteAsserted (s : State) (k : AgentNo) : Bool :=
  !s.rstAsserted && decide ((s.agent k).state ≠ .detached)
    && ((s.notice k).lost || (s.notice k).queue.any fun r => maskedIn (s.notice k).mask r.notice)

/-- The port drives SDO: while SEL# is low (R162; log entry 19), and not while RST# is asserted (R172). Otherwise
SDO is high-impedance. -/
def sdoDriven (s : State) (p : PortNo) : Bool := !s.rstAsserted && (s.port p).selLow

/-- The agent of a port; the check port has none. -/
def portAgent (p : PortNo) : Option AgentNo :=
  if h : p.val < 8 then some ⟨p.val, h⟩ else none

def lastSendCode : LastSend → Nat
  | .good => 0
  | .crc => 1
  | .runt => 2
  | .long => 3

/-- REPLY_READY and PENDING, bits 7 and 6. -/
def slotBits : PortSlots → Nat
  | .idle => 0
  | .pending _ => 64
  | .answered _ => 128

/-- NOTICE and the agent state, bits 2 to 0; they read 0 on the check port. -/
def agentBits (s : State) (p : PortNo) : Nat :=
  match portAgent p with
  | some k => 4 * (noteAsserted s k).toNat + (agentStateCode (s.agent k).state).toNat
  | none => 0

/-- The port status byte (R165, 11.10). -/
def statusByte (s : State) (p : PortNo) : Byte :=
  let q := s.port p
  BitVec.ofNat 8 (slotBits q.slots + 32 * q.overrun.toNat + 8 * lastSendCode q.lastSend + agentBits s p)

/-! ### The common checks (R116, R117) -/

/-- A refusal that carries nothing. -/
def refuse (o : ReplyOutcome) : Answer := { outcome := o, body := [] }

/-- Check 3: the agent's state admits the kind. ALREADY_ATTACHED and NOT_FENCED carry the epoch (R118). -/
def stateRefusal (kind : ReqKind) (a : AgentRecord) : Option Answer :=
  match a.state with
  | .detached => if kind = .attach ∨ kind = .status then none else some (refuse .notAttached)
  | .attached =>
    if kind = .attach then some { outcome := .alreadyAttached, body := num2 a.epoch.toNat }
    else if kind = .resync then some { outcome := .notFenced, body := num2 a.epoch.toNat }
    else none
  | .fenced => if kind.admittedFenced then none else some (refuse .fenced)

/-- Checks 2 to 5 of R116, in order; check 1, the kind, is what tells the rows of the table apart. -/
def commonRefusal (kind : ReqKind) (k : AgentNo) (r : Request) (s : State) : Option Answer :=
  if r.body.length ≠ kind.bodyLength then some (refuse .badField)
  else
    match stateRefusal kind (s.agent k) with
    | some a => some a
    | none =>
      if kind.skipsEpoch = false ∧ r.epoch ≠ (s.agent k).epoch then some (refuse .staleEpoch)
      else if kind.isAdmin = true ∧ (s.accessOf k).admin = false then some (refuse .notAdmin)
      else none

/-! ### Taking a request (R170, R171) -/

/-- A request in a port's slots. -/
def pendingRequest : PortSlots → Option Request
  | .pending r => some r
  | .idle | .answered _ => none

/-- Port p holds a request that goes through the intake arbiter (R170). -/
def engineBound (s : State) (p : PortNo) : Bool :=
  match pendingRequest (s.port p).slots with
  | some r => decide (p = checkPort) || !isNoticeKind r.kind
  | none => false

/-- The port the arbiter hands to the engine: the first engine-bound one, counting on from the port after the
last served and wrapping from the check port to port 0 (R170). -/
def arbiterPick (s : State) : Option PortNo :=
  ((List.finRange 9).map fun j => s.lastServed + 1 + j).find? fun p => engineBound s p

/-- The request the engine can take from port p now. While RST# is asserted nothing is taken. -/
def engineRequest (s : State) (p : PortNo) : Option Request :=
  if s.rstAsserted = true ∨ arbiterPick s ≠ some p then none else pendingRequest (s.port p).slots

/-- The request the notice unit can take from agent port k now (R170). -/
def noticeRequest (s : State) (k : AgentNo) : Option Request :=
  if s.rstAsserted = true then none
  else (pendingRequest (s.port (agentPort k)).slots).filter fun r => isNoticeKind r.kind

/-- The reply is written into the reply slot and the port becomes ANSWERED; kind and sequence tag echo the
request's (R171). -/
def placeReply (p : PortNo) (r : Request) (a : Answer) (s : State) : State :=
  s.setPort p { s.port p with slots := .answered { kind := r.kind, seqTag := r.seqTag, answer := a } }

/-- A unit's action on a request: the state it leaves, and its answer. -/
abbrev Action := State → State × Answer

/-- A refusal leaves the part as it was. -/
def refusing (a : Answer) : Action := fun s => (s, a)

/-- The outcome of taking request r from port p: the action and the reply are one event (R171). -/
def answered (p : PortNo) (r : Request) (act : Action) (s : State) : State :=
  placeReply p r (act s).2 (act s).1

/-- The engine takes a request from agent port k whose kind is the one given, and applies the common checks
before its own action on the body. Where the port has no such request for the engine, the event of this row
cannot occur and the state stays as it is (log entry 1). -/
def engineTakes (kind : ReqKind) (k : AgentNo) (act : List Byte → Action) (s : State) :
    Host.Outcome State Fault Refusal :=
  match engineRequest s (agentPort k) with
  | some r =>
    if r.kind = kind.code then
      .next (answered (agentPort k) r
        (match commonRefusal kind k r s with
          | some a => refusing a
          | none => act r.body)
        (s.serve (agentPort k)))
    else .next s
  | none => .next s

/-- The same for the notice unit, which the arbiter has no part in. -/
def noticeUnitTakes (kind : ReqKind) (k : AgentNo) (act : List Byte → Action) (s : State) :
    Host.Outcome State Fault Refusal :=
  match noticeRequest s k with
  | some r =>
    if r.kind = kind.code then
      .next (answered (agentPort k) r
        (match commonRefusal kind k r s with
          | some a => refusing a
          | none => act r.body) s)
    else .next s
  | none => .next s

/-- The engine takes a check-port request of the kind given; only the body length is checked (R117). -/
def checkPortTakes (kind : ReqKind) (act : List Byte → Action) (s : State) :
    Host.Outcome State Fault Refusal :=
  match engineRequest s checkPort with
  | some r =>
    if r.kind = kind.code then
      .next (answered checkPort r
        (if r.body.length ≠ kind.bodyLength then refusing (refuse .badField) else act r.body)
        (s.serve checkPort))
    else .next s
  | none => .next s

/-- An event of the timer, the engine or the notice unit that no request starts: it needs RST# released. -/
def whileRunning (act : State → State) (s : State) : Host.Outcome State Fault Refusal :=
  if s.rstAsserted = true then .next s else .next (act s)

/-- An event of the lease timer or of a tick: while the tick period is 0 there is none (R51, R85, R86, R97). -/
def whileTicking (act : State → State) (s : State) : Host.Outcome State Fault Refusal :=
  whileRunning (fun s => if s.tickPeriod = 0 then s else act s) s

end Sys2Proof.Machine
end

