-- ==== Sys2Proof/Machine/Acquire.lean ====
section
/-! DEFINITION. ACQUIRE (chapter 2). -/

namespace Sys2Proof.Machine

/-- The effective duration (R22). -/
def effectiveDuration (d : DomainRecord) (requested : Nat) : Nat :=
  if requested = 0 then d.defaultDuration else requested

/-- The effective warn mark (R22). -/
def effectiveWarn (d : DomainRecord) (requested duration : Nat) : Nat :=
  if requested ≠ 0 then requested else if d.defaultWarn < duration then d.defaultWarn else 0

/-- The claim of agent k's ACQUIRE whose base lies in domain d, with the effective values of R22. -/
def claimOf (s : State) (k : AgentNo) (f : AcquireFields) (d : DomainNo) : Claim :=
  let duration := effectiveDuration (s.domain d) f.duration
  { agent := k, domain := d, range := f.range, mode := f.mode, priority := f.priority, duration
    warn := effectiveWarn (s.domain d) f.warn duration, tag := f.tag }

/-- The agent's own live leases that conflict with a claim (R27). -/
def selfConflicts (s : State) (c : Claim) : List (LeaseIdx × Lease) :=
  (conflictSearch s c.range c.mode).filter fun p => decide (p.2.holder = c.agent)

/-- Checks 3 to 9 of R23, in order, with what each refusal carries (R24 to R27). -/
def claimRefusal (s : State) (c : Claim) : Option Answer :=
  let d := s.domain c.domain
  let a := s.accessOf c.agent
  if d.bound < rangeEnd c.range then some { outcome := .spansDomains, body := num1 c.domain.val ++ num3 d.bound }
  else if a.mask.getLsbD c.domain.val = false then some (refuse .domainDenied)
  else if c.mode = .exclusive ∧ a.exclusive = false then some (refuse .modeDenied)
  else if c.priority = .urgent ∧ a.urgent = false then some (refuse .urgentDenied)
  else if d.maxDuration < c.duration then some { outcome := .durationTooLong, body := num2 d.maxDuration }
  else if c.duration ≤ c.warn then some { outcome := .badWarn, body := num2 c.duration }
  else
    match (selfConflicts s c).head? with
    | some (i, l) => some { outcome := .selfConflict, body := leaseIdBytes (leaseIdAt i l) }
    | none => none

/-- The waiter joins the list, and recall runs for it (R34, R35). -/
def queueClaim (c : Claim) (limit : Nat) (b : Blocked) (i : WaitIdx) : Action := fun s =>
  let w := newWaiter c limit b i s
  let q := recallFor w (queueWaiter w s)
  (q.1, { outcome := .queued
          body := waitIdBytes w.id ++ blockedBytes b ++ num1 (aheadOfClass c.priority s.waiters).length
            ++ num1 q.2 })

/-- A claim that passes the nine checks: granted, refused BUSY, WAIT_LIMIT or WAITLIST_FULL, or queued
(R30 to R34). -/
def settleClaim (c : Claim) (limit : Nat) : Action := fun s =>
  match grantVerdict s c (aheadOfClass c.priority s.waiters) with
  | .grantable i =>
    (placeLease c i s,
      { outcome := .granted, body := leaseIdBytes (s.nextLeaseId i) ++ tokenBytes s.tokenCounter ++ num2 c.duration })
  | .blocked b =>
    if limit = 0 then (s, { outcome := .busy, body := blockedBytes b })
    else if (s.accessOf c.agent).waitLimit ≤ (s.agent c.agent).waitCount then
      (s, { outcome := .waitLimit, body := num1 (s.accessOf c.agent).waitLimit })
    else
      match freeWaitSlot s with
      | none => (s, { outcome := .waitlistFull, body := blockedBytes b })
      | some i => queueClaim c limit b i s

/-- ACQUIRE's own checks and effect (R23). -/
def acquireAction (k : AgentNo) (body : List Byte) : Action := fun s =>
  match acquireFieldsOf body with
  | none => (s, refuse .badField)
  | some f =>
    match domainOf s f.range.base with
    | none => (s, { outcome := .outOfSpace, body := num3 (s.domain 15).bound })
    | some d =>
      match claimRefusal s (claimOf s k f d) with
      | some a => (s, a)
      | none => settleClaim (claimOf s k f d) f.waitLimit s

/-- ACQUIRE (R23). -/
def execAcquire (k : AgentNo) (s : State) : Host.Outcome State Fault Refusal :=
  engineTakes .acquire k (acquireAction k) s

end Sys2Proof.Machine
end

