-- ==== Sys2Proof/Machine/Agents.lean ====
section
/-! DEFINITION. ATTACH, DETACH, RESYNC and SET_ACCESS (chapter 7). -/

namespace Sys2Proof.Machine

/-- ATTACH's effect (R119, R147). -/
def attachAction (k : AgentNo) : Action := fun s =>
  let a := s.agent k
  (((s.setAgent k { a with state := .attached, epoch := a.epoch + 1, fenceCause := none, denials := 0 }).setNotice k
      NoticeState.reset).setCursor k none,
    { outcome := .ok, body := num2 (a.epoch + 1).toNat })

/-- ATTACH (R119). -/
def execAttach (k : AgentNo) (s : State) : Host.Outcome State Fault Refusal :=
  engineTakes .attach k (fun _ => attachAction k) s

/-- DETACH's steps 1 to 5 (R120). -/
def detachAgent (k : AgentNo) (s : State) : State :=
  let s1 := s.setAgent k { s.agent k with state := .detached }
  let s2 := dropWaitersOf k (endLeasesOf k .detached s1)
  (s2.setNotice k { s2.notice k with queue := [] }).setCursor k none

/-- DETACH's effect (R120). -/
def detachAction (k : AgentNo) : Action := fun s =>
  let q := reexamine (detachAgent k s)
  (q.1, { outcome := .ok, body := num1 (holdings s k).length ++ num1 (waitersOf s k).length ++ num1 q.2 })

/-- DETACH (R120). -/
def execDetach (k : AgentNo) (s : State) : Host.Outcome State Fault Refusal :=
  engineTakes .detach k (fun _ => detachAction k) s

/-- RESYNC's effect (R121, R147). -/
def resyncAction (k : AgentNo) : Action := fun s =>
  let a := s.agent k
  ((s.setAgent k { a with state := .attached, epoch := a.epoch + 1, fenceCause := none }).setCursor k none,
    { outcome := .ok, body := num2 (a.epoch + 1).toNat })

/-- RESYNC (R121). -/
def execResync (k : AgentNo) (s : State) : Host.Outcome State Fault Refusal :=
  engineTakes .resync k (fun _ => resyncAction k) s

/-- Agent k holds a live lease or a waiter in domain d. -/
def usesDomain (s : State) (k : AgentNo) (d : DomainNo) : Bool :=
  ((liveLeases s).any fun p => decide (p.2.holder = k) && decide (p.2.domain = d))
    || s.waiters.any fun w => decide (w.claim.agent = k) && decide (w.claim.domain = d)

/-- The lowest domain that agent k uses and a new mask leaves out (check 8 of R124). -/
def domainLeftOut (s : State) (k : AgentNo) (mask : BitVec 16) : Option DomainNo :=
  (List.finRange 16).find? fun d => usesDomain s k d && !mask.getLsbD d.val

/-- Agent k holds an EXCLUSIVE live lease or an EXCLUSIVE waiter (check 9 of R124). -/
def holdsExclusive (s : State) (k : AgentNo) : Bool :=
  ((liveLeases s).any fun p => decide (p.2.holder = k) && decide (p.2.mode = .exclusive))
    || s.waiters.any fun w => decide (w.claim.agent = k) && decide (w.claim.mode = .exclusive)

/-- A SET_ACCESS that passes its checks (R125): it re-examines only where the lease limit rose. -/
def replaceAccess (k : AgentNo) (a : AccessRecord) : Action := fun s =>
  let t := s.setAccessOf k a
  let q := if (s.accessOf k).leaseLimit < a.leaseLimit then reexamine t else (t, 0)
  (q.1, { outcome := .ok, body := num1 k.val ++ accessBytes a ++ num1 q.2 })

/-- SET_ACCESS's checks 6 to 9 and effect (R124, R125). -/
def setAccessAction (body : List Byte) : Action := fun s =>
  match accessFieldsOf body with
  | none => (s, refuse .badField)
  | some (k, a) =>
    let r := s.agent k
    if a.leaseLimit < r.leaseCount ∨ a.waitLimit < r.waitCount then
      (s, { outcome := .limitBelowUse, body := num1 r.leaseCount ++ num1 r.waitCount })
    else
      match domainLeftOut s k a.mask with
      | some d => (s, { outcome := .domainInUse, body := num1 d.val })
      | none =>
        if (s.accessOf k).exclusive = true ∧ a.exclusive = false ∧ holdsExclusive s k = true then
          (s, refuse .modeDenied)
        else replaceAccess k a s

/-- SET_ACCESS (R124). -/
def execSetAccess (k : AgentNo) (s : State) : Host.Outcome State Fault Refusal :=
  engineTakes .setAccess k setAccessAction s

end Sys2Proof.Machine
end

