-- ==== Sys2Proof/Machine/Cancel.lean ====
section
/-! DEFINITION. CANCEL and WAIT_LAPSE (chapter 3). -/

namespace Sys2Proof.Machine

/-- CANCEL of a waiter in the list by its own agent (R55). -/
def cancelWaiter (w : Waiter) : Action := fun s =>
  let q := reexamine (depart .cancelled w s)
  (q.1, { outcome := .cancelled, body := waitIdBytes w.id ++ num1 q.2 })

/-- CANCEL's own checks and effect (R54). -/
def cancelAction (k : AgentNo) (body : List Byte) : Action := fun s =>
  match waitIdOf (natOfBytes body) with
  | none => (s, refuse .badField)
  | some id =>
    match resolveWait s id with
    | .noWaiter => (s, refuse .noSuchWait)
    | .ended m =>
      if m.agent = k then (s, { outcome := .waitEnded, body := waitEndBytes m.cause })
      else (s, { outcome := .notHolder, body := num1 m.agent.val })
    | .waiting w =>
      if w.claim.agent = k then cancelWaiter w s
      else (s, { outcome := .notHolder, body := num1 w.claim.agent.val })

/-- CANCEL (R54). -/
def execCancel (k : AgentNo) (s : State) : Host.Outcome State Fault Refusal :=
  engineTakes .cancel k (cancelAction k) s

/-- The waiter in a wait slot whose wait remaining a tick brings to 0. -/
def lapsingWaiter (s : State) (i : WaitIdx) : Option Waiter :=
  s.waiters.find? fun w => decide (w.id.slot = i) &&
    (match w.left with
      | .bounded n => decide (n ≤ 1)
      | .unbounded => false)

/-- WAIT_LAPSE (R52): the bounded waiter in wait slot i that reaches 0 leaves LAPSED. It is one step of a
tick's second stage, as a command of its own (log entry 3). -/
def execWaitLapse (i : WaitIdx) (s : State) : Host.Outcome State Fault Refusal :=
  whileTicking (fun s =>
    match lapsingWaiter s i with
    | some w => lapseWaiter w s
    | none => s) s

end Sys2Proof.Machine
end

