-- ==== Sys2Proof/Machine/Domains.lean ====
section
/-! DEFINITION. CONFIG_DOMAIN and DOMAIN_INFO (chapter 8). -/

namespace Sys2Proof.Machine

/-- The domain that check 9 finds busy, d before d + 1, which is tested only where the bound changes (R132). -/
def busyDomain (s : State) (d : DomainNo) (newBound : Nat) : Option DomainNo :=
  if domainIdle s d = false then some d
  else if newBound ≠ (s.domain d).bound ∧ d ≠ 15 ∧ domainIdle s (d + 1) = false then some (d + 1)
  else none

/-- CONFIG_DOMAIN's checks 6 to 9 and effect (R130 to R133). -/
def configDomainAction (body : List Byte) : Action := fun s =>
  match domainFieldsOf body with
  | none => (s, refuse .badField)
  | some (d, r) =>
    if r.bound < firstUnit s d ∨ highestBound s d < r.bound then
      (s, { outcome := .badOrder, body := num3 (firstUnit s d) ++ num3 (highestBound s d) })
    else
      match busyDomain s d r.bound with
      | some b =>
        (s, { outcome := .domainBusy, body := num1 b.val ++ num1 (leasesIn s b) ++ num1 (waitersIn s b) })
      | none =>
        (s.setDomain d r, { outcome := .ok, body := num1 d.val ++ num3 (firstUnit s d) ++ domainBytes r })

/-- CONFIG_DOMAIN (R130). -/
def execConfigDomain (k : AgentNo) (s : State) : Host.Outcome State Fault Refusal :=
  engineTakes .configDomain k configDomainAction s

/-- DOMAIN_INFO's check and reply (R135). -/
def domainInfoAction : List Byte → Action
  | [b] => fun s =>
    match domainOfByte b with
    | none => (s, refuse .badField)
    | some d =>
      (s, { outcome := .ok
            body := num1 d.val ++ num3 (firstUnit s d) ++ domainBytes (s.domain d) ++ num1 (leasesIn s d)
              ++ num1 (waitersIn s d) })
  | _ => refusing (refuse .badField)

/-- DOMAIN_INFO (R135). -/
def execDomainInfo (k : AgentNo) (s : State) : Host.Outcome State Fault Refusal :=
  engineTakes .domainInfo k domainInfoAction s

end Sys2Proof.Machine
end

