-- ==== Sys2Proof/Machine/Links.lean ====
section
/-! DEFINITION. The link transactions SEND, COLLECT, PORT_RESET and IGNORED_TRANSACTION, and UNKNOWN_REQUEST
(chapter 11). -/

namespace Sys2Proof.Machine

/-! ### Opening and closing a transaction -/

/-- The reply frame a COLLECT opened now would shift, if the port is ANSWERED (R168). -/
def collectable : PortSlots → Option (List Byte)
  | .answered r => some (replyFrame r)
  | .idle | .pending _ => none

/-- A falling edge of SEL#: the port captures its status byte and what a COLLECT would shift (R164, R168).
While RST# is asserted the edge is not acted on (R172). A SEL# already low has no falling edge. -/
def selFalls (p : PortNo) (s : State) : State :=
  let q := s.port p
  if q.selLow = true then s
  else
    s.setPort p { q with
      selLow := true
      opened :=
        if s.rstAsserted = true then none
        else some { status := statusByte s p, reply := collectable q.slots } }

/-- A rising edge of SEL#: the open transaction closes and acts. A transaction that a device reset ended, or
that was never opened, does not act (R172). -/
def selRises (p : PortNo) (act : Opened → State → State) (s : State) : State :=
  let q := s.port p
  if q.selLow = false then s
  else
    let t := s.setPort p { q with selLow := false, opened := none }
    match q.opened with
    | some o => act o t
    | none => t

/-- The edges that a command of a kind brings. A transaction acts by the kind that its first byte names (R164):
where that is not the command's own kind, the event of its row does not occur and only the edges happen
(log entry 1). -/
def transact (p : PortNo) (kind : Option TransactionKind) (act : List Bool → Opened → State → State)
    (phase : LinkPhase) (s : State) : State :=
  let acts := fun bits o t => if transactionKind bits = kind then act bits o t else t
  match phase with
  | .opens => selFalls p s
  | .closes bits => selRises p (acts bits) s
  | .whole bits => selRises p (acts bits) (selFalls p s)

/-- Record what the port shifted on SDO in a transaction: the status byte, the payload, and 00h from there on. -/
def shifts (p : PortNo) (o : Opened) (payload : List Byte) (bits : List Bool) (s : State) : State :=
  s.setPort p { s.port p with sdo := shiftOut o.status payload bits.length }

/-- The bits clocked after the kind byte. -/
def afterKind (bits : List Bool) : List Bool := bits.drop 8

/-! ### SEND -/

/-- A completed SEND of the bytes given (R163, R166, R167). -/
def receiveFrame (bytes : List Byte) (q : Port) : Port :=
  match judgeFrame bytes with
  | .runt => { q with lastSend := .runt }
  | .long => { q with lastSend := .long }
  | .crc => { q with lastSend := .crc }
  | .good r =>
    match q.slots with
    | .idle => { q with lastSend := .good, slots := .pending r, overrun := false }
    | .pending _ | .answered _ => { q with lastSend := .good, overrun := true }

/-- The rising edge of a SEND; the port shifted 00h after the status byte (R166). -/
def closeSend (p : PortNo) (bits : List Bool) (o : Opened) (s : State) : State :=
  shifts p o [] bits (s.setPort p (receiveFrame (wholeBytes (afterKind bits)) (s.port p)))

/-- SEND (R166). -/
def execSend (p : PortNo) (phase : LinkPhase) (s : State) : Host.Outcome State Fault Refusal :=
  .next (transact p (some .send) (closeSend p) phase s)

/-! ### COLLECT -/

/-- The reply slot empties when every byte of the frame has been clocked out (R168). -/
def collectDone (o : Opened) (n : Nat) : Bool :=
  match o.reply with
  | some frame => decide (frame.length ≤ n / 8)
  | none => false

/-- The rising edge of a COLLECT; of the bits after the kind byte only their number counts (R168). -/
def closeCollect (p : PortNo) (bits : List Bool) (o : Opened) (s : State) : State :=
  let t := shifts p o (o.reply.getD emptyMarker) bits s
  if collectDone o (afterKind bits).length then t.setPort p { t.port p with slots := .idle } else t

/-- COLLECT (R168). -/
def execCollect (p : PortNo) (phase : LinkPhase) (s : State) : Host.Outcome State Fault Refusal :=
  .next (transact p (some .collect) (closeCollect p) phase s)

/-! ### PORT_RESET -/

/-- The five steps of R169 at port p, of which the cursor's is for an agent port only. -/
def resetPort (p : PortNo) (s : State) : State :=
  let t := s.setPort p { s.port p with slots := .idle, overrun := false, lastSend := .good }
  match portAgent p with
  | some k => t.setCursor k none
  | none => t

/-- The rising edge of a PORT_RESET (R169). -/
def closePortReset (p : PortNo) (bits : List Bool) (o : Opened) (s : State) : State :=
  shifts p o [] bits (resetPort p s)

/-- PORT_RESET (R169). -/
def execPortReset (p : PortNo) (phase : LinkPhase) (s : State) : Host.Outcome State Fault Refusal :=
  .next (transact p (some .portReset) (closePortReset p) phase s)

/-! ### IGNORED_TRANSACTION -/

/-- A transaction whose first byte names no kind, or is incomplete, only shifts: the status byte, then 00h
(R164). -/
def execIgnoredTransaction (p : PortNo) (phase : LinkPhase) (s : State) : Host.Outcome State Fault Refusal :=
  .next (transact p none (fun bits o t => shifts p o [] bits t) phase s)

/-! ### UNKNOWN_REQUEST -/

/-- A kind that port p may not send (R116 check 1, R117). -/
def unknownKind (p : PortNo) (kind : Byte) : Bool :=
  if p = checkPort then !checkPortMaySend kind else !agentMaySend kind

/-- UNKNOWN_REQUEST (R116, R117): the engine takes the request and refuses it. -/
def execUnknownRequest (p : PortNo) (s : State) : Host.Outcome State Fault Refusal :=
  match engineRequest s p with
  | some r =>
    if unknownKind p r.kind then
      .next (answered p r (refusing (refuse .unknownRequest)) (s.serve p))
    else .next s
  | none => .next s

end Sys2Proof.Machine
end

