-- ==== Sys2Proof/Machine/Notices.lean ====
section
/-! DEFINITION. NOTICE_READ, NOTICE_ACK, SET_NOTICE_MASK and NOTICE_POST (chapter 9). -/

namespace Sys2Proof.Machine

/-- NOTICE_READ (R142): the reply reports the lost flag as it stood, and the flag is cleared. -/
def noticeReadAction (k : AgentNo) : Action := fun s =>
  let q := s.notice k
  let t := s.setNotice k { q with lost := false }
  match q.queue with
  | [] =>
    (t, { outcome := .queueEmpty, body := yesNo q.lost ++ num1 q.lostCount ++ [q.nextSeq] })
  | n :: _ =>
    ({ t with draws := s.draws + 1 },
      { outcome := .ok
        body := noticeRecordBytes s.draws n ++ yesNo q.lost ++ num1 q.lostCount ++ num1 q.queue.length
          ++ [q.nextSeq] })

/-- NOTICE_READ (R142). -/
def execNoticeRead (k : AgentNo) (s : State) : Host.Outcome State Fault Refusal :=
  noticeUnitTakes .noticeRead k (fun _ => noticeReadAction k) s

/-- NOTICE_ACK (R143). -/
def noticeAckAction (k : AgentNo) : List Byte → Action
  | [seq] => fun s =>
    let q := s.notice k
    match q.queue with
    | [] => (s, { outcome := .queueEmpty, body := [q.nextSeq] })
    | n :: rest =>
      if seq = n.seq then
        (s.setNotice k { q with queue := rest }, { outcome := .ok, body := [seq] ++ num1 rest.length })
      else (s, { outcome := .seqMismatch, body := [n.seq] })
  | _ => refusing (refuse .badField)

/-- NOTICE_ACK (R143). -/
def execNoticeAck (k : AgentNo) (s : State) : Host.Outcome State Fault Refusal :=
  noticeUnitTakes .noticeAck k (noticeAckAction k) s

/-- SET_NOTICE_MASK (R144); bit 7 of the field must be 0. -/
def setNoticeMaskAction (k : AgentNo) : List Byte → Action
  | [m] => fun s =>
    if m.getLsbD 7 then (s, refuse .badField)
    else
      (s.setNotice k { s.notice k with mask := m.setWidth 7 },
        { outcome := .ok, body := num1 (s.notice k).mask.toNat })
  | _ => refusing (refuse .badField)

/-- SET_NOTICE_MASK (R144). -/
def execSetNoticeMask (k : AgentNo) (s : State) : Host.Outcome State Fault Refusal :=
  noticeUnitTakes .setNoticeMask k (setNoticeMaskAction k) s

/-- NOTICE_POST (R139, R141): an arrival's notices are taken together, in the order given. The engine's own
actions post theirs within the action; as a command of its own this is an arrival given from outside (log
entry 4). -/
def execNoticePost (arrival : List (AgentNo × Notice)) (s : State) : Host.Outcome State Fault Refusal :=
  whileRunning (fun s => arrival.foldl (fun s p => postNotice p.1 p.2 s) s) s

end Sys2Proof.Machine
end

