-- ==== Sys2Proof/Machine/Queries.lean ====
section
/-! DEFINITION. QUERY, QUERY_NEXT, STATUS, CHECK_TOKEN and CHECK_AGENT (chapter 10). -/

namespace Sys2Proof.Machine

/-! ### Batches -/

/-- Take at most n matching items from a list, in order: the items taken, and what was not examined. -/
def takeBatch {α : Type} (meets : α → Bool) : Nat → List α → List α × List α
  | _, [] => ([], [])
  | 0, xs => ([], xs)
  | n + 1, x :: xs =>
    if meets x then
      if n = 0 then ([x], xs)
      else
        let r := takeBatch meets n xs
        (x :: r.1, r.2)
    else takeBatch meets (n + 1) xs

/-- A live lease meets a lease filter (R151). -/
def leaseMeets (f : Filter) (l : Lease) : Bool :=
  match f with
  | .byRange r => overlaps l.range r
  | .byAgent k => decide (l.holder = k)
  | .waits _ => false

/-- A slot is taken into a lease batch when it holds a live lease that meets the filter (R151). -/
def slotMeets (s : State) (f : Filter) (i : LeaseIdx) : Bool :=
  match s.lease i with
  | .held l => leaseMeets f l
  | .free _ => false

/-- A waiter meets the waiter filter (R153). -/
def waiterMeets (f : Filter) (w : Waiter) : Bool :=
  match f with
  | .waits (some k) => decide (w.claim.agent = k)
  | .waits none => true
  | .byRange _ | .byAgent _ => false

/-- Number a list's items from 0. -/
def numbered {α : Type} (xs : List α) : List (Nat × α) := (List.range xs.length).zip xs

/-- The bytes of a lease batch. -/
def leaseBatchBytes (s : State) (slots : List LeaseIdx) : List Byte :=
  (numbered slots).flatMap fun p =>
    match s.lease p.2 with
    | .held l => leaseRecordBytes s.draws p.1 p.2 l
    | .free _ => []

/-- The bytes of a waiter batch; a waiter's place is the number of waiters ahead of it (R153). -/
def waiterBatchBytes (s : State) (ws : List Waiter) : List Byte :=
  (numbered ws).flatMap fun p =>
    waiterRecordBytes s.draws p.1 p.2 (aheadOf p.2.id s.waiters).length

/-- A batch under a lease filter, scanned from a slot (R151). -/
def leaseBatch (k : AgentNo) (f : Filter) (start : Nat) : Action := fun s =>
  let r := takeBatch (slotMeets s f) 4 ((List.finRange 64).drop start)
  let body := leaseBatchBytes s r.1
  let t := { s with draws := s.draws + 1 }
  match r.2 with
  | [] => (t.setCursor k none, { outcome := .endOfQuery, body })
  | i :: _ => (t.setCursor k (some { filter := f, position := .atSlot i }), { outcome := .ok, body })

/-- What the cursor keeps of a waiter (R153). -/
def keep (w : Waiter) : KeptWaiter :=
  { id := w.id, arrival := w.arrival, priority := w.claim.priority }

/-- A batch under the WAITS filter, over the waiters from the resume point (R153). -/
def waiterBatch (k : AgentNo) (f : Filter) (from_ : List Waiter) : Action := fun s =>
  let r := takeBatch (waiterMeets f) 4 from_
  let body := waiterBatchBytes s r.1
  let t := { s with draws := s.draws + 1 }
  match r.2, r.1.getLast? with
  | _ :: _, some w =>
    (t.setCursor k (some { filter := f, position := .afterWaiter (keep w) }), { outcome := .ok, body })
  | _, _ => (t.setCursor k none, { outcome := .endOfQuery, body })

/-- Arrival number a is later than the kept one: reached in fewer than 2,147,483,648 steps forward (R154). -/
def laterArrival (kept a : Arrival) : Bool := decide ((a - kept).toNat < 2147483648)

/-- The waiters from the resume point on (R154). -/
def resumeAfter (s : State) (kept : KeptWaiter) : List Waiter :=
  let still := fun w : Waiter => decide (w.id = kept.id) && decide (w.arrival = kept.arrival)
  if s.waiters.any still then (s.waiters.dropWhile fun w => !still w).drop 1
  else
    let later := s.waiters.dropWhile fun w =>
      !(decide (w.claim.priority = kept.priority) && laterArrival kept.arrival w.arrival)
    match kept.priority, later with
    | .normal, _ => later
    | .urgent, _ :: _ => later
    | .urgent, [] => s.waiters.dropWhile isUrgent

/-- The next batch under a cursor, from its position (R151, R153). -/
def nextBatch (k : AgentNo) (c : Cursor) : Action := fun s =>
  match c.position with
  | .atSlot i => leaseBatch k c.filter i.val s
  | .atHead => waiterBatch k c.filter s.waiters s
  | .afterWaiter kept => waiterBatch k c.filter (resumeAfter s kept) s

/-- The cursor a QUERY opens: at slot 0, or at the head of the list (R150). -/
def openCursor (f : Filter) : Cursor :=
  { filter := f
    position := match f with
      | .waits _ => .atHead
      | .byRange _ | .byAgent _ => .atSlot 0 }

/-- QUERY's check and effect (R150). -/
def queryAction (k : AgentNo) (body : List Byte) : Action := fun s =>
  match filterOf body with
  | none => (s, refuse .badField)
  | some f => nextBatch k (openCursor f) s

/-- QUERY (R150). -/
def execQuery (k : AgentNo) (s : State) : Host.Outcome State Fault Refusal :=
  engineTakes .query k (queryAction k) s

/-- QUERY_NEXT's check and effect (R156). -/
def queryNextAction (k : AgentNo) : Action := fun s =>
  match s.cursor k with
  | none => (s, refuse .noCursor)
  | some c => nextBatch k c s

/-- QUERY_NEXT (R156). -/
def execQueryNext (k : AgentNo) (s : State) : Host.Outcome State Fault Refusal :=
  engineTakes .queryNext k (fun _ => queryNextAction k) s

/-! ### STATUS -/

/-- The five device items of R157 and R158. -/
def deviceItems (s : State) : List Byte :=
  num1 (freeLeaseSlots s) ++ num1 s.waiters.length ++ tokenBytes s.tokenCounter ++ num2 s.tickPeriod
    ++ num4 s.arrivals.toNat

/-- STATUS from agent port k (R157). -/
def agentStatusAction (k : AgentNo) : Action := fun s =>
  let a := s.agent k
  (s, { outcome := .ok
        body := [agentStateCode a.state] ++ num2 a.epoch.toNat ++ num1 a.leaseCount ++ num1 a.waitCount
          ++ fenceCauseBytes a.fenceCause ++ num2 a.denials ++ deviceItems s })

/-- STATUS from the check port (R158). -/
def checkStatusAction : Action := fun s =>
  (s, { outcome := .ok, body := num4 s.checkDenials ++ deviceItems s })

/-- STATUS (R157, R158). -/
def execStatus (p : PortNo) (s : State) : Host.Outcome State Fault Refusal :=
  match portAgent p with
  | some k => engineTakes .status k (fun _ => agentStatusAction k) s
  | none => checkPortTakes .status (fun _ => checkStatusAction) s

/-! ### The check port -/

/-- A DENY charged to agent k, saturating at 65,535 (R161). -/
def countAgentDenial (k : AgentNo) (s : State) : State :=
  s.setAgent k { s.agent k with
    denials := if (s.agent k).denials < 65535 then (s.agent k).denials + 1 else 65535 }

/-- A DENY charged to the check port, saturating at 4,294,967,295 (R161). -/
def countPortDenial (s : State) : State :=
  { s with checkDenials := if s.checkDenials < 4294967295 then s.checkDenials + 1 else 4294967295 }

/-- DENY carries its reason first. -/
def deny (r : DenyReason) (carries : List Byte) : Answer := { outcome := .deny, body := denyCode r :: carries }

/-- The live lease that carries a token (R159). -/
def leaseOfToken (s : State) (t : Token) : Option (LeaseIdx × Lease) :=
  (liveLeases s).find? fun p => decide (p.2.token = t)

/-- The three tests of R159, in order. -/
def checkToken (t : Token) (u : Nat) (a : Access) : Action := fun s =>
  match leaseOfToken s t with
  | none => (countPortDenial s, deny .noToken [])
  | some (i, l) =>
    let names := leaseIdBytes (leaseIdAt i l) ++ num1 l.holder.val
    if covers l.range u = false then (countAgentDenial l.holder s, deny .outOfRange names)
    else if permits l.mode a = false then (countAgentDenial l.holder s, deny .mode names)
    else (s, { outcome := .allow, body := names })

def checkTokenAction (body : List Byte) : Action := fun s =>
  match checkTokenFieldsOf body with
  | none => (s, refuse .badField)
  | some (t, u, a) => checkToken t u a s

/-- CHECK_TOKEN (R159). -/
def execCheckToken (s : State) : Host.Outcome State Fault Refusal :=
  checkPortTakes .checkToken checkTokenAction s

/-- The live leases of agent k that cover a unit with a mode that permits the access, lowest slot first: the
overlap search over the one-unit range, restricted to the agent (R8, R160). -/
def coveringLeases (s : State) (k : AgentNo) (u : Nat) (a : Access) : List (LeaseIdx × Lease) :=
  (overlapSearch s { base := u, count := 1 }).filter fun p => decide (p.2.holder = k) && permits p.2.mode a

/-- R160's table. -/
def checkAgent (k : AgentNo) (u : Nat) (a : Access) : Action := fun s =>
  match (s.agent k).state with
  | .detached => (countAgentDenial k s, deny .notAttached [])
  | .fenced => (countAgentDenial k s, deny .agentFenced [])
  | .attached =>
    match (coveringLeases s k u a).head? with
    | some (i, l) => (s, { outcome := .allow, body := leaseIdBytes (leaseIdAt i l) ++ tokenBytes l.token })
    | none => (countAgentDenial k s, deny .notCovered [])

def checkAgentAction (body : List Byte) : Action := fun s =>
  match checkAgentFieldsOf body with
  | none => (s, refuse .badField)
  | some (k, u, a) => checkAgent k u a s

/-- CHECK_AGENT (R160). -/
def execCheckAgent (s : State) : Host.Outcome State Fault Refusal :=
  checkPortTakes .checkAgent checkAgentAction s

end Sys2Proof.Machine
end

