-- ==== Sys2Proof/Machine/Reset.lean ====
section
/-! DEFINITION. DEVICE_RESET and RESET_RELEASE (R94, R172, R175). -/

namespace Sys2Proof.Machine

/-- A port while RST# is asserted: at its reset value, but for the level of SEL#, which the link's master
drives (R172). -/
def resetPins (q : Port) : Port := { Port.reset with selLow := q.selLow }

/-- DEVICE_RESET (R172): every record returns to its reset value. The commands still waiting outside, the
count of free values drawn and the levels of SEL# are not the part's to discard. -/
def execDeviceReset (s : State) : Host.Outcome State Fault Refusal :=
  .next { State.reset with ports := s.ports.map resetPins, draws := s.draws, pending := s.pending }

/-- RESET_RELEASE (R81, R94, R175): the straps are sampled, the first interval begins, and the ports take
transactions. With RST# already released there is no such event, and a change of CLKSEL has no effect (R81). -/
def execResetRelease (clksel : BitVec 2) (s : State) : Host.Outcome State Fault Refusal :=
  if s.rstAsserted = true then
    .next { s with rstAsserted := false, clksel, elapsed := 0, refPhase := 0 }
  else .next s

end Sys2Proof.Machine
end

