-- ==== Sys2Proof/Machine/Reshape.lean ====
section
/-! DEFINITION. RENEW, TRIM, DOWNGRADE, UPGRADE and RELEASE (chapter 4). -/

namespace Sys2Proof.Machine

/-- Checks 5 to 7 of R61 with what their refusals carry (R62); act is the request's own work on the lease. -/
def onHeldLease (k : AgentNo) (id : LeaseId) (act : Lease → Action) : Action := fun s =>
  match resolveLease s id with
  | .ended m => (s, { outcome := .leaseEnded, body := leaseMemoryBytes m })
  | .noLease => (s, refuse .noSuchLease)
  | .live l =>
    if l.holder = k then act l s else (s, { outcome := .notHolder, body := num1 l.holder.val })

/-- The new Duration of a RENEW (R64). -/
def newDuration (l : Lease) (requested : Nat) : Nat :=
  if requested = 0 then l.duration else requested

/-- The renewed record (R65); Renewals saturates at 255 (R6). -/
def renewed (l : Lease) (requested : Nat) : Lease :=
  { l with
    duration := newDuration l requested
    remaining := newDuration l requested
    renewals := if l.renewals < 255 then l.renewals + 1 else 255 }

/-- RENEW's checks 8 to 10 and effect (R64, R65). -/
def renewLease (id : LeaseId) (requested : Nat) (l : Lease) : Action := fun s =>
  let d := s.domain l.domain
  if l.state = .recalled then (s, { outcome := .recalled, body := num2 l.remaining })
  else if d.maxDuration < newDuration l requested then
    (s, { outcome := .durationTooLong, body := num2 d.maxDuration })
  else if newDuration l requested ≤ l.warn then (s, { outcome := .badWarn, body := num2 l.warn })
  else
    (s.setLease id.slot (.held (renewed l requested)),
      { outcome := .ok
        body := leaseIdBytes id ++ num2 (newDuration l requested) ++ num1 (renewed l requested).renewals })

def renewAction (k : AgentNo) : List Byte → Action
  | [i1, i0, d1, d0] =>
    let id := leaseIdOf (natOfBytes [i1, i0])
    onHeldLease k id (renewLease id (natOfBytes [d1, d0]))
  | _ => refusing (refuse .badField)

/-- RENEW (R64). -/
def execRenew (k : AgentNo) (s : State) : Host.Outcome State Fault Refusal :=
  engineTakes .renew k (renewAction k) s

/-- The new range of a TRIM is non-empty and lies inside the present one (R67). -/
def trimFits (new old : Range) : Bool :=
  decide (new.count ≠ 0) && decide (old.base ≤ new.base) && decide (rangeEnd new ≤ rangeEnd old)

/-- TRIM's check 8 and effect (R67, R68). -/
def trimLease (id : LeaseId) (r : Range) (l : Lease) : Action := fun s =>
  if trimFits r l.range then
    let q := reexamine (s.setLease id.slot (.held { l with range := r }))
    (q.1, { outcome := .ok, body := leaseIdBytes id ++ rangeBytes r })
  else (s, { outcome := .badField, body := rangeBytes l.range })

def trimAction (k : AgentNo) : List Byte → Action
  | i1 :: i0 :: range =>
    let id := leaseIdOf (natOfBytes [i1, i0])
    onHeldLease k id (trimLease id (rangeOf range))
  | _ => refusing (refuse .badField)

/-- TRIM (R67). -/
def execTrim (k : AgentNo) (s : State) : Host.Outcome State Fault Refusal :=
  engineTakes .trim k (trimAction k) s

/-- DOWNGRADE's check 8 and effect (R70). -/
def downgradeLease (id : LeaseId) (l : Lease) : Action := fun s =>
  if l.mode = .exclusive then
    let q := reexamine (s.setLease id.slot (.held { l with mode := .shared }))
    (q.1, { outcome := .ok, body := leaseIdBytes id })
  else (s, refuse .notExclusive)

def downgradeAction (k : AgentNo) (body : List Byte) : Action :=
  onHeldLease k (leaseIdOf (natOfBytes body)) (downgradeLease (leaseIdOf (natOfBytes body)))

/-- DOWNGRADE (R70). -/
def execDowngrade (k : AgentNo) (s : State) : Host.Outcome State Fault Refusal :=
  engineTakes .downgrade k (downgradeAction k) s

/-- The live leases that overlap the one in slot i, itself left out (check 11 of R72). -/
def upgradeBlockers (s : State) (i : LeaseIdx) (l : Lease) : List (LeaseIdx × Lease) :=
  (overlapSearch s l.range).filter fun p => decide (p.1 ≠ i)

/-- UPGRADE's checks 8 to 11 and effect (R72, R73). -/
def upgradeLease (id : LeaseId) (l : Lease) : Action := fun s =>
  if l.state = .recalled then (s, { outcome := .recalled, body := num2 l.remaining })
  else if l.mode = .exclusive then (s, refuse .notShared)
  else if (s.accessOf l.holder).exclusive = false then (s, refuse .modeDenied)
  else
    match (upgradeBlockers s id.slot l).head? with
    | some (i, b) => (s, { outcome := .conflict, body := leaseIdBytes (leaseIdAt i b) ++ num1 b.holder.val })
    | none =>
      (s.setLease id.slot (.held { l with mode := .exclusive }),
        { outcome := .ok, body := leaseIdBytes id ++ tokenBytes l.token })

def upgradeAction (k : AgentNo) (body : List Byte) : Action :=
  onHeldLease k (leaseIdOf (natOfBytes body)) (upgradeLease (leaseIdOf (natOfBytes body)))

/-- UPGRADE (R72). -/
def execUpgrade (k : AgentNo) (s : State) : Host.Outcome State Fault Refusal :=
  engineTakes .upgrade k (upgradeAction k) s

/-- RELEASE's effect (R75). -/
def releaseLease (id : LeaseId) (l : Lease) : Action := fun s =>
  let q := reexamine (endLease .released id.slot s)
  (q.1, { outcome := .ok, body := leaseIdBytes id ++ tokenBytes l.token ++ num1 q.2 })

def releaseAction (k : AgentNo) (body : List Byte) : Action :=
  onHeldLease k (leaseIdOf (natOfBytes body)) (releaseLease (leaseIdOf (natOfBytes body)))

/-- RELEASE (R75). -/
def execRelease (k : AgentNo) (s : State) : Host.Outcome State Fault Refusal :=
  engineTakes .release k (releaseAction k) s

end Sys2Proof.Machine
end

