-- ==== Sys2Proof/Machine/Revoke.lean ====
section
/-! DEFINITION. FORCE_REVOKE, EVICT and GRACE_LAPSE (chapter 6). -/

namespace Sys2Proof.Machine

/-- FORCE_REVOKE of a live lease (R106). -/
def revokeLease (id : LeaseId) (l : Lease) : Action := fun s =>
  let q := reexamine (postNotice l.holder (.revoked id l.tag) (endLease .revoked id.slot s))
  (q.1, { outcome := .ok, body := leaseIdBytes id ++ num1 l.holder.val ++ num1 q.2 })

/-- FORCE_REVOKE's checks 6 and 7 and effect (R105, R106). -/
def forceRevokeAction (body : List Byte) : Action := fun s =>
  let id := leaseIdOf (natOfBytes body)
  match resolveLease s id with
  | .ended m => (s, { outcome := .leaseEnded, body := leaseMemoryBytes m })
  | .noLease => (s, refuse .noSuchLease)
  | .live l => revokeLease id l s

/-- FORCE_REVOKE (R106). -/
def execForceRevoke (k : AgentNo) (s : State) : Host.Outcome State Fault Refusal :=
  engineTakes .forceRevoke k forceRevokeAction s

/-- EVICT of an ATTACHED agent (R109). -/
def evictAgent (k : AgentNo) : Action := fun s =>
  let q := reexamine (fence k .evicted s)
  (q.1, { outcome := .ok
          body := num1 k.val ++ num1 (holdings s k).length ++ num1 (waitersOf s k).length ++ num1 q.2 })

/-- EVICT's checks 6 to 8 and effect (R108, R109). -/
def evictAction : List Byte → Action
  | [b] => fun s =>
    match agentOf b with
    | none => (s, refuse .badField)
    | some k =>
      match (s.agent k).state with
      | .detached => (s, { outcome := .notAttached, body := num1 k.val })
      | .fenced => (s, { outcome := .fenced, body := num1 k.val })
      | .attached => evictAgent k s
  | _ => refusing (refuse .badField)

/-- EVICT (R109). -/
def execEvict (k : AgentNo) (s : State) : Host.Outcome State Fault Refusal :=
  engineTakes .evict k evictAction s

/-- GRACE_LAPSE (R100): the RECALLED lease in slot i that the countdown brings to 0 ends REVOKED and its
holder is fenced. It is one step of a tick's first stage, as a command of its own (log entry 3). -/
def execGraceLapse (i : LeaseIdx) (s : State) : Host.Outcome State Fault Refusal :=
  whileTicking (fun s =>
    match s.lease i with
    | .held l => if l.state = .recalled ∧ l.remaining ≤ 1 then lapseGrace i l s else s
    | .free _ => s) s

end Sys2Proof.Machine
end

