-- ==== Sys2Proof/Machine/Timer.lean ====
section
/-! DEFINITION. SET_TICK, INTERVAL_EXPIRY, TICK and LEASE_EXPIRY (chapter 5). -/

namespace Sys2Proof.Machine

/-- SET_TICK's effect (R84, R85): the period is set, the interval restarts or stops, and pending ticks are
discarded. The time base's microsecond restarts with the interval (log entry 6). -/
def setTickAction (body : List Byte) : Action := fun s =>
  ({ s with tickPeriod := natOfBytes body, elapsed := 0, refPhase := 0, pendingTicks := 0 },
    { outcome := .ok, body := num2 s.tickPeriod })

/-- SET_TICK (R85). -/
def execSetTick (k : AgentNo) (s : State) : Host.Outcome State Fault Refusal :=
  engineTakes .setTick k setTickAction s

/-- INTERVAL_EXPIRY (R82): the microseconds left of the interval pass and it runs out. -/
def execIntervalExpiry (s : State) : Host.Outcome State Fault Refusal :=
  whileTicking expireInterval s

/-- TICK (R51, R82): the engine takes one pending tick. Without one there is no tick action. -/
def execTick (s : State) : Host.Outcome State Fault Refusal :=
  whileTicking (fun s =>
    if s.pendingTicks = 0 then s else tickStages { s with pendingTicks := s.pendingTicks - 1 }) s

/-- LEASE_EXPIRY (R90): the LIVE lease in slot i that the countdown brings to 0 ends EXPIRED. It is one step
of a tick's first stage, as a command of its own (log entry 3). -/
def execLeaseExpiry (i : LeaseIdx) (s : State) : Host.Outcome State Fault Refusal :=
  whileTicking (fun s =>
    match s.lease i with
    | .held l => if l.state = .live ∧ l.remaining ≤ 1 then expireLease i l s else s
    | .free _ => s) s

end Sys2Proof.Machine
end

