-- ==== Sys2Proof/Machine/Dispatch.lean ====
section
/-! DEFINITION. The meaning of every command: one arm for each row of spec/opcode_table.json. -/

namespace Sys2Proof.Machine

def exec (i : Instr) (s : State) : Host.Outcome State Fault Refusal :=
  match i with
  | .acquire k => Sys2Proof.Machine.execAcquire k s
  | .cancel k => Sys2Proof.Machine.execCancel k s
  | .renew k => Sys2Proof.Machine.execRenew k s
  | .trim k => Sys2Proof.Machine.execTrim k s
  | .downgrade k => Sys2Proof.Machine.execDowngrade k s
  | .upgrade k => Sys2Proof.Machine.execUpgrade k s
  | .release k => Sys2Proof.Machine.execRelease k s
  | .setTick k => Sys2Proof.Machine.execSetTick k s
  | .forceRevoke k => Sys2Proof.Machine.execForceRevoke k s
  | .evict k => Sys2Proof.Machine.execEvict k s
  | .attach k => Sys2Proof.Machine.execAttach k s
  | .detach k => Sys2Proof.Machine.execDetach k s
  | .resync k => Sys2Proof.Machine.execResync k s
  | .setAccess k => Sys2Proof.Machine.execSetAccess k s
  | .configDomain k => Sys2Proof.Machine.execConfigDomain k s
  | .domainInfo k => Sys2Proof.Machine.execDomainInfo k s
  | .noticeRead k => Sys2Proof.Machine.execNoticeRead k s
  | .noticeAck k => Sys2Proof.Machine.execNoticeAck k s
  | .setNoticeMask k => Sys2Proof.Machine.execSetNoticeMask k s
  | .query k => Sys2Proof.Machine.execQuery k s
  | .queryNext k => Sys2Proof.Machine.execQueryNext k s
  | .status p => Sys2Proof.Machine.execStatus p s
  | .checkToken => Sys2Proof.Machine.execCheckToken s
  | .checkAgent => Sys2Proof.Machine.execCheckAgent s
  | .send p phase => Sys2Proof.Machine.execSend p phase s
  | .collect p phase => Sys2Proof.Machine.execCollect p phase s
  | .portReset p phase => Sys2Proof.Machine.execPortReset p phase s
  | .ignoredTransaction p phase => Sys2Proof.Machine.execIgnoredTransaction p phase s
  | .deviceReset => Sys2Proof.Machine.execDeviceReset s
  | .resetRelease clksel => Sys2Proof.Machine.execResetRelease clksel s
  | .intervalExpiry => Sys2Proof.Machine.execIntervalExpiry s
  | .tick => Sys2Proof.Machine.execTick s
  | .leaseExpiry slot => Sys2Proof.Machine.execLeaseExpiry slot s
  | .graceLapse slot => Sys2Proof.Machine.execGraceLapse slot s
  | .waitLapse slot => Sys2Proof.Machine.execWaitLapse slot s
  | .noticePost arrival => Sys2Proof.Machine.execNoticePost arrival s
  | .unknownRequest p => Sys2Proof.Machine.execUnknownRequest p s

end Sys2Proof.Machine
end

