-- ==== Sys2Proof/Safety.lean ====
section
/-! DEFINITION. The laws of the device as properties of a state, and the premises that statements about
requests share. -/

namespace Sys2Proof.Machine

/-! ### The laws of the device -/

/-- The first law (R9): overlapping live leases are both SHARED. -/
def FirstLaw (s : State) : Prop :=
  ∀ i j li lj, s.lease i = .held li → s.lease j = .held lj → i ≠ j → overlaps li.range lj.range = true →
    li.mode = .shared ∧ lj.mode = .shared

/-- Waiters stand in different wait slots (R39). -/
def WaitSlotsDistinct (s : State) : Prop := (s.waiters.map (·.id.slot)).Nodup

/-- The third law (R113): the counts equal the records and stay within the limits. -/
def ThirdLaw (s : State) : Prop :=
  ∀ k, (s.agent k).leaseCount = (holdings s k).length ∧ (s.agent k).leaseCount ≤ (s.accessOf k).leaseLimit
    ∧ (s.agent k).waitCount = (waitersOf s k).length ∧ (s.agent k).waitCount ≤ (s.accessOf k).waitLimit

/-- The fourth law (R13): live tokens differ; and the counter holds a token that no live lease carries (R12). -/
def FourthLaw (s : State) : Prop :=
  (∀ i j li lj, s.lease i = .held li → s.lease j = .held lj → li.token = lj.token → i = j)
    ∧ (∀ i l, s.lease i = .held l → l.token ≠ 0 ∧ l.token ≠ s.tokenCounter) ∧ s.tokenCounter ≠ 0

/-- A range of agent k lies in domain d, the one that lookup gives for its base, and d is in k's mask. -/
def liesIn (s : State) (k : AgentNo) (d : DomainNo) (r : Range) : Prop :=
  0 < r.count ∧ domainOf s r.base = some d ∧ rangeEnd r ≤ (s.domain d).bound
    ∧ (s.accessOf k).mask.getLsbD d.val = true

/-- The fifth law (R128). -/
def FifthLaw (s : State) : Prop :=
  (∀ i l, s.lease i = .held l → liesIn s l.holder l.domain l.range)
    ∧ ∀ w ∈ s.waiters, liesIn s w.claim.agent w.claim.domain w.claim.range

/-- The sixth law (R114): an agent that is not ATTACHED holds nothing. -/
def SixthLaw (s : State) : Prop :=
  (∀ i l, s.lease i = .held l → (s.agent l.holder).state = .attached)
    ∧ ∀ w ∈ s.waiters, (s.agent w.claim.agent).state = .attached

/-- The relations R126 gives every domain record. -/
def DomainRecordsSound (s : State) : Prop :=
  ∀ d, let r := s.domain d
    1 ≤ r.defaultDuration ∧ r.defaultDuration ≤ r.maxDuration ∧ r.maxDuration ≤ 65535
      ∧ r.defaultWarn < r.defaultDuration ∧ 1 ≤ r.recallGrace ∧ r.recallGrace ≤ 65535

/-- The seventh law (R92), with the warn mark below Duration (R5) and the same bounds on a waiter. -/
def SeventhLaw (s : State) : Prop :=
  (∀ i l, s.lease i = .held l →
      1 ≤ l.remaining ∧ l.remaining ≤ l.duration ∧ l.duration ≤ (s.domain l.domain).maxDuration
        ∧ l.warn < l.duration ∧ (l.state = .recalled → l.remaining ≤ (s.domain l.domain).recallGrace))
    ∧ ∀ w ∈ s.waiters, 1 ≤ w.claim.duration ∧ w.claim.duration ≤ (s.domain w.claim.domain).maxDuration
        ∧ w.claim.warn < w.claim.duration

/-- The eighth law (R50): no waiter meets all four grant conditions. -/
def EighthLaw (s : State) : Prop :=
  ∀ w ∈ s.waiters, ∀ i, grantVerdict s w.claim (aheadOf w.id s.waiters) ≠ .grantable i

/-- The classes of the ninth law (R44): every waiter ahead of an URGENT waiter is URGENT. -/
def ClassesInOrder (s : State) : Prop :=
  s.waiters.Pairwise fun a b => b.claim.priority = .urgent → a.claim.priority = .urgent

/-- How many waiters have been queued from w on, w included, counted modulo 4,294,967,296 (R42). -/
def age (s : State) (w : Waiter) : Nat := (s.arrivals - w.arrival).toNat

/-- The arrivals of the ninth law (R44, R45): within a class, a waiter ahead of another arrived earlier. -/
def ArrivalsInOrder (s : State) : Prop :=
  (∀ w ∈ s.waiters, 1 ≤ age s w)
    ∧ s.waiters.Pairwise fun a b => a.claim.priority = b.claim.priority → age s b < age s a

/-- The ninth law (R44): every waiter ahead of a NORMAL waiter is URGENT or arrived earlier, and every waiter ahead
of an URGENT waiter is URGENT. -/
def NinthLaw (s : State) : Prop := ClassesInOrder s ∧ ArrivalsInOrder s

/-- How many numbers a queue skips, between neighbours and from the newest notice to the next number (R140). -/
def numbersSkipped : List NoticeRecord → SeqNo → Nat
  | [], _ => 0
  | [a], next => (next - a.seq - 1).toNat
  | a :: b :: rest, next => (b.seq - a.seq - 1).toNat + numbersSkipped (b :: rest) next

/-- The tenth law (R140), as far as one state shows it: a queue holds at most 8 notices, and it skips no more
numbers than posts were dropped, which the lost count counts below its saturation at 255. -/
def TenthLaw (s : State) : Prop :=
  ∀ k, (s.notice k).queue.length ≤ 8
    ∧ ((s.notice k).lostCount < 255 → numbersSkipped (s.notice k).queue (s.notice k).nextSeq ≤ (s.notice k).lostCount)

/-- The eleventh law (R131): bounds do not fall from one domain to the next and stay within the unit space. -/
def EleventhLaw (s : State) : Prop :=
  ∀ d e : DomainNo, d ≤ e → (s.domain d).bound ≤ (s.domain e).bound ∧ (s.domain e).bound ≤ unitSpace

/-! ### Premises of statements about requests -/

/-- The engine can take request r from port p now (R170): it waits there and the arbiter's turn is p's. -/
abbrev EngineReady (s : State) (p : PortNo) (r : Request) : Prop :=
  s.rstAsserted = false ∧ (s.port p).slots = .pending r ∧ arbiterPick s = some p

/-- The notice unit can take request r from agent port k now (R170). -/
abbrev NoticeReady (s : State) (k : AgentNo) (r : Request) : Prop :=
  s.rstAsserted = false ∧ (s.port (agentPort k)).slots = .pending r

/-- Check 3 of R116 (and of R117 for the notice requests) admits a kind in an agent state. -/
def stateAdmits (kind : ReqKind) : AgentState → Bool
  | .detached => decide (kind = .attach) || decide (kind = .status)
  | .attached => decide (kind ≠ .attach) && decide (kind ≠ .resync)
  | .fenced => decide (kind ∈ [.resync, .detach, .status, .query, .queryNext, .noticeRead, .noticeAck, .setNoticeMask])

/-- The kinds the epoch check skips (R115). -/
abbrev SkipsEpoch (kind : ReqKind) : Prop := kind ∈ [ReqKind.attach, .resync, .status]

/-- The admin requests (check 5 of R116). -/
abbrev IsAdminKind (kind : ReqKind) : Prop :=
  kind ∈ [ReqKind.setTick, .forceRevoke, .evict, .setAccess, .configDomain]

/-- The kinds the notice unit takes (R170). -/
abbrev IsNoticeRequest (kind : ReqKind) : Prop := kind ∈ [ReqKind.noticeRead, .noticeAck, .setNoticeMask]

/-- Request r of a kind passes the common checks of agent k (R116, R117). -/
abbrev PassesChecks (s : State) (k : AgentNo) (kind : ReqKind) (r : Request) : Prop :=
  r.kind = kind.code ∧ r.body.length = kind.bodyLength ∧ stateAdmits kind (s.agent k).state = true
    ∧ (SkipsEpoch kind ∨ r.epoch = (s.agent k).epoch) ∧ (IsAdminKind kind → (s.accessOf k).admin = true)

/-- An engine request of a kind from agent port k is ready and passes the common checks. -/
abbrev Admitted (s : State) (k : AgentNo) (kind : ReqKind) (r : Request) : Prop :=
  EngineReady s (agentPort k) r ∧ PassesChecks s k kind r

/-- A notice request of a kind from agent port k is ready and passes the common checks. -/
abbrev NoticeAdmitted (s : State) (k : AgentNo) (kind : ReqKind) (r : Request) : Prop :=
  NoticeReady s k r ∧ PassesChecks s k kind r

/-- A check-port request of a kind is ready, with a body of its kind's length (R117). -/
abbrev CheckAdmitted (s : State) (kind : ReqKind) (r : Request) : Prop :=
  EngineReady s checkPort r ∧ r.kind = kind.code ∧ r.body.length = kind.bodyLength

/-- The command in which an agent's request of a kind is taken; the check kinds are the check port's alone. -/
def commandOf (k : AgentNo) : ReqKind → Option Instr
  | .acquire => some (.acquire k) | .cancel => some (.cancel k) | .renew => some (.renew k)
  | .trim => some (.trim k) | .downgrade => some (.downgrade k) | .upgrade => some (.upgrade k)
  | .release => some (.release k) | .setTick => some (.setTick k) | .forceRevoke => some (.forceRevoke k)
  | .evict => some (.evict k) | .attach => some (.attach k) | .detach => some (.detach k)
  | .resync => some (.resync k) | .setAccess => some (.setAccess k) | .configDomain => some (.configDomain k)
  | .domainInfo => some (.domainInfo k) | .noticeRead => some (.noticeRead k) | .noticeAck => some (.noticeAck k)
  | .setNoticeMask => some (.setNoticeMask k) | .query => some (.query k) | .queryNext => some (.queryNext k)
  | .status => some (.status (agentPort k)) | .checkToken => none | .checkAgent => none

/-- State s with the reply to r placed at port p: the port is ANSWERED, with the kind and sequence tag of the
request, and nothing else differs (R171). -/
abbrev replied (p : PortNo) (r : Request) (o : ReplyOutcome) (body : List Byte) (s : State) : State :=
  let reply := { kind := r.kind, seqTag := r.seqTag, answer := { outcome := o, body } }
  { s with ports := s.ports.set p { s.port p with slots := .answered reply } }

/-- A range that a request may ask for (00_scope.md, 4.1). -/
abbrev RangeSound (r : Range) : Prop := 0 < r.count ∧ r.count < unitSpace ∧ rangeEnd r ≤ unitSpace

/-- An ACQUIRE body as its sender lays it out (11.10). -/
def acquireBody (f : AcquireFields) : List Byte :=
  rangeBytes f.range ++ num1 (modeBit f.mode) ++ num1 (priorityBit f.priority) ++ num2 f.duration ++ num2 f.warn
    ++ num2 f.waitLimit ++ yesNo f.tag.isSome ++ tagBytes f.tag

/-- What agent k asks for in domain d, with the effective duration and warn mark of R22. -/
def requestedClaim (s : State) (k : AgentNo) (f : AcquireFields) (d : DomainNo) : Claim :=
  let duration := if f.duration = 0 then (s.domain d).defaultDuration else f.duration
  { agent := k, domain := d, range := f.range, mode := f.mode, priority := f.priority, duration
    warn := if f.warn ≠ 0 then f.warn else if (s.domain d).defaultWarn < duration then (s.domain d).defaultWarn else 0
    tag := f.tag }

/-- An ACQUIRE frame with the fields f is admitted, and its fields are in range (check 1 of R23). -/
abbrev AcquireAdmitted (s : State) (k : AgentNo) (r : Request) (f : AcquireFields) : Prop :=
  Admitted s k .acquire r ∧ r.body = acquireBody f ∧ RangeSound f.range ∧ f.duration ≤ 65535 ∧ f.warn ≤ 65535
    ∧ f.waitLimit ≤ 65535

/-- Checks 2 to 8 of R23 pass for a claim: its range lies in its domain, the agent has the rights it needs, and
its times fit the domain's maximum. -/
abbrev ClaimFits (s : State) (c : Claim) : Prop :=
  (∀ e < c.domain, (s.domain e).bound ≤ c.range.base) ∧ rangeEnd c.range ≤ (s.domain c.domain).bound
    ∧ (s.accessOf c.agent).mask.getLsbD c.domain.val = true
    ∧ (c.mode = .exclusive → (s.accessOf c.agent).exclusive = true)
    ∧ (c.priority = .urgent → (s.accessOf c.agent).urgent = true)
    ∧ c.duration ≤ (s.domain c.domain).maxDuration ∧ c.warn < c.duration

/-- Check 9 of R23: no conflicting live lease is the agent's own. -/
def NoSelfConflict (s : State) (c : Claim) : Prop :=
  ∀ j l, s.lease j = .held l → l.holder = c.agent → conflicts l.range l.mode c.range c.mode = false

/-- The waiters that a claim would find ahead of it if queued (R29). -/
def aheadIfQueued (s : State) (c : Claim) : List Waiter :=
  s.waiters.filter fun w => decide (c.priority = .normal) || decide (w.claim.priority = .urgent)

/-- Lease slot i is the lowest FREE one (R10). -/
def LowestFreeSlot (s : State) (i : LeaseIdx) : Prop :=
  (∃ m, s.lease i = .free m) ∧ ∀ j < i, ∃ l, s.lease j = .held l

/-- Wait slot i is the lowest empty one (R40). -/
abbrev LowestEmptyWaitSlot (s : State) (i : WaitIdx) : Prop :=
  (∀ w ∈ s.waiters, w.id.slot ≠ i) ∧ ∀ j < i, ∃ w ∈ s.waiters, w.id.slot = j

/-- Agent k's live lease under an id, in a request that names it (checks 5 to 7 of R61). -/
abbrev OwnLease (s : State) (k : AgentNo) (id : LeaseId) (l : Lease) : Prop :=
  s.lease id.slot = .held l ∧ l.gen = id.gen ∧ l.holder = k

/-- State t differs from s only where a re-examination of the wait list may change it: the lease table, the
token counter, the agents' counts, the wait list with its slots, and the notice queues (R47 to R49). -/
def DiffersByWalk (s t : State) : Prop :=
  t = { s with leases := t.leases, agents := t.agents, tokenCounter := t.tokenCounter, waiters := t.waiters,
               waitSlots := t.waitSlots, notices := t.notices }
    ∧ (∀ i l, s.lease i = .held l → t.lease i = .held l)
    ∧ ∀ k, t.agent k = { s.agent k with leaseCount := (t.agent k).leaseCount, waitCount := (t.agent k).waitCount }
      ∧ (t.notice k).mask = (s.notice k).mask

/-- From s to t, every live lease of agent j has ended with a cause, and every waiter of j has left DROPPED: the
slots are freed, the memories written and the counts lowered (R14, R46, R53), and of the lease table, the wait list
and its slots, and the counts nothing else has changed. -/
def AllOfAgentEnded (s t : State) (j : AgentNo) (cause : EndCause) : Prop :=
  (∀ (i : LeaseIdx) l, s.lease i = .held l → l.holder = j →
      t.leases[i] = { s.leases[i] with content := .free (some { gen := l.gen, cause := cause, token := l.token, holder := j }) })
    ∧ (∀ i : LeaseIdx, (∀ l, s.lease i = .held l → l.holder ≠ j) → t.leases[i] = s.leases[i])
    ∧ t.waiters = (s.waiters.filter fun w => decide (w.claim.agent ≠ j))
    ∧ (∀ w ∈ s.waiters, w.claim.agent = j →
      t.waitSlot w.id.slot = { s.waitSlot w.id.slot with memory := some { gen := w.id.gen, cause := .dropped, agent := j } })
    ∧ (∀ i, (∀ w ∈ s.waiters, w.id.slot = i → w.claim.agent ≠ j) → t.waitSlot i = s.waitSlot i)
    ∧ (t.agent j).leaseCount = (s.agent j).leaseCount - (holdings s j).length
    ∧ (t.agent j).waitCount = (s.agent j).waitCount - (waitersOf s j).length
    ∧ ∀ k, k ≠ j → t.agent k = s.agent k

end Sys2Proof.Machine
end

