-- ==== Sys2Proof/WellFormed.lean ====
section
/-! DEFINITION. Which terms of Instr are commands of the block. Ports, agents, slots and straps are in range by
their types; the link transactions and the arrivals of notices have operands that a term could get wrong. -/

namespace Sys2Proof

open Sys2Proof.Machine

/-- What a transaction clocked, once it closes. -/
def clockedOf : LinkPhase → Option (List Bool)
  | .opens => none
  | .closes bits => some bits
  | .whole bits => some bits

/-- The first byte of a transaction that closes names the kind given, or none (R164). -/
def closesAs (kind : Option TransactionKind) (phase : LinkPhase) : Bool :=
  match clockedOf phase with
  | some bits => decide (transactionKind bits = kind)
  | none => true

/-- A Remaining that a notice may report (chapter 1.2). -/
def ticksInBounds (n : Nat) : Bool := 1 ≤ n && n ≤ 65535

/-- The fields of a notice are in the ranges of R137 and R102. -/
def noticeInBounds : Notice → Bool
  | .granted _ _ token _ range _ => decide (token ≠ 0) && rangeValid range
  | .warn _ remaining => ticksInBounds remaining
  | .recall _ remaining _ => ticksInBounds remaining
  | .expired _ _ => true
  | .revoked _ _ => true
  | .waitLapsed _ _ => true
  | .fenced (.graceLapse _) ended dropped => ended ≤ 63 && dropped ≤ 8
  | .fenced .evicted ended dropped => ended ≤ 64 && dropped ≤ 8

/-- A transaction's first byte names the kind of its row, and for an ignored one no kind (R164); an arrival holds
a notice, and every field in bounds (R141, R137). -/
def wellFormed : Instr → Bool
  | .acquire _ => true
  | .cancel _ => true
  | .renew _ => true
  | .trim _ => true
  | .downgrade _ => true
  | .upgrade _ => true
  | .release _ => true
  | .setTick _ => true
  | .forceRevoke _ => true
  | .evict _ => true
  | .attach _ => true
  | .detach _ => true
  | .resync _ => true
  | .setAccess _ => true
  | .configDomain _ => true
  | .domainInfo _ => true
  | .noticeRead _ => true
  | .noticeAck _ => true
  | .setNoticeMask _ => true
  | .query _ => true
  | .queryNext _ => true
  | .status _ => true
  | .checkToken => true
  | .checkAgent => true
  | .send _ phase => closesAs (some .send) phase
  | .collect _ phase => closesAs (some .collect) phase
  | .portReset _ phase => closesAs (some .portReset) phase
  | .ignoredTransaction _ phase => closesAs none phase
  | .deviceReset => true
  | .resetRelease _ => true
  | .intervalExpiry => true
  | .tick => true
  | .leaseExpiry _ => true
  | .graceLapse _ => true
  | .waitLapse _ => true
  | .noticePost arrival => !arrival.isEmpty && arrival.all fun p => noticeInBounds p.2
  | .unknownRequest _ => true

end Sys2Proof
end

