-- ==== Sys2Proof/Certificates/Slice0/Obligations.lean ====
section
/-! DEFINITION. The statements for the provers. -/

open Sys2Proof Sys2Proof.Machine

/-! ### The block -/

/-- Tier 1. A step takes the command at the front of the queue and answers what exec answers on the rest. -/
def Obligations.StepTakesFrontCommand : Prop :=
  ∀ (c : Instr) (rest : List Instr) (s : State),
    step { s with pending := c :: rest } = exec c { s with pending := rest }

/-- A step on an empty queue is one REFCLK cycle (log entry 6, the model's choice): the divider counts to the
divisor of the straps, a microsecond is counted, and a full period makes a pending tick (R81, R82, R85, R94). -/
def Obligations.EmptyQueueStepIsOneRefclkCycle : Prop :=
  ∀ s : State, s.pending = [] →
    (s.rstAsserted = true ∨ s.tickPeriod = 0 → step s = .next s)
    ∧ (s.rstAsserted = false → s.tickPeriod ≠ 0 →
      (s.refPhase + 1 < 8 * (s.clksel.toNat + 1) → step s = .next { s with refPhase := s.refPhase + 1 })
      ∧ (8 * (s.clksel.toNat + 1) ≤ s.refPhase + 1 → s.elapsed + 1 < s.tickPeriod →
        step s = .next { s with refPhase := 0, elapsed := s.elapsed + 1 })
      ∧ (8 * (s.clksel.toNat + 1) ≤ s.refPhase + 1 → s.tickPeriod ≤ s.elapsed + 1 →
        step s = .next { s with refPhase := 0, elapsed := 0, pendingTicks := if s.pendingTicks < 255 then s.pendingTicks + 1 else 255 }))

/-- Every command answers a next state, from every state, and leaves the commands that wait as they were. That it
does so where the command's event cannot occur is the model's choice (log entry 1), and so is that no command, not even
DEVICE_RESET, touches the queue, which is the model's own field (log entries 7 and 11). -/
def Obligations.EveryCommandCompletesAndKeepsTheQueue : Prop :=
  ∀ (c : Instr) (s : State), ∃ t, exec c s = .next t ∧ t.pending = s.pending

/-! ### Reset -/

/-- State.reset holds the values the chapters give for device reset, and DEVICE_RESET leaves every record at its
reset value. The model's choice, and no rule of the spec: State.reset has RST# asserted (log entry 7); the straps, of
which the spec gives no value before they are sampled, return to 00b (log entry 2); the commands waiting, the count of
free values drawn and the level of SEL# stay (log entries 5 and 11). -/
def Obligations.DeviceResetRestoresEveryRecord : Prop :=
  (let s := State.reset
  s.rstAsserted = true ∧ s.tickPeriod = 1000 ∧ s.elapsed = 0 ∧ s.pendingTicks = 0
    ∧ (∀ i : LeaseIdx, s.leases[i] = { content := .free none, nextGen := 0 }) ∧ s.tokenCounter = 1
    ∧ s.waiters = [] ∧ (∀ i, s.waitSlot i = { memory := none, nextGen := 0 }) ∧ s.arrivals = 0
    ∧ (∀ k, s.agent k = { state := .detached, epoch := 0, leaseCount := 0, waitCount := 0, fenceCause := none, denials := 0 })
    ∧ s.accessOf 0 = { mask := 0xFFFF, exclusive := true, urgent := true, leaseLimit := 64, waitLimit := 8, admin := true }
    ∧ (∀ k, k ≠ 0 → s.accessOf k = { mask := 0xFFFF, exclusive := true, urgent := false, leaseLimit := 16, waitLimit := 4, admin := false })
    ∧ (∀ d, s.domain d = { bound := 1048576, defaultDuration := 1000, maxDuration := 65535, defaultWarn := 0, recallGrace := 50, recallEnabled := true })
    ∧ (∀ k, s.notice k = { queue := [], nextSeq := 0, mask := 0x7F, lost := false, lostCount := 0 })
    ∧ (∀ k, noteAsserted s k = false)
    ∧ (∀ p, (s.port p).slots = .idle ∧ (s.port p).overrun = false ∧ (s.port p).lastSend = .good ∧ (s.port p).opened = none)
    ∧ (∀ k, s.cursor k = none) ∧ s.lastServed = checkPort ∧ s.checkDenials = 0)
  ∧ ∀ s : State, exec .deviceReset s =
    .next { State.reset with
      ports := s.ports.map fun q => { Port.reset with selLow := q.selLow }
      draws := s.draws
      pending := s.pending }

/-- RESET_RELEASE samples the straps and begins the first interval; with RST# released there is no such event
(log entry 1). After DEVICE_RESET and the release, the first falling edge on a port captures status byte 00h
(R175), for a port whose SEL# was high. -/
def Obligations.ResetReleaseStartsThePart : Prop :=
  (∀ (s : State) (straps : BitVec 2),
    (s.rstAsserted = true →
      exec (.resetRelease straps) s = .next { s with rstAsserted := false, clksel := straps, elapsed := 0, refPhase := 0 })
    ∧ (s.rstAsserted = false → exec (.resetRelease straps) s = .next s))
  ∧ ∀ (s : State) (straps : BitVec 2) (p : PortNo), (s.port p).selLow = false →
    ∃ t u v, exec .deviceReset s = .next t ∧ exec (.resetRelease straps) t = .next u
      ∧ exec (.send p .opens) u = .next v ∧ (v.port p).opened = some { status := 0, reply := none }

/-! ### Ports and links -/

/-- The status byte of R165, bit by bit, with the condition of NOTE# (R145) in bit 2. -/
def Obligations.StatusByteShowsThePort : Prop :=
  ∀ (s : State) (p : PortNo),
    let b := statusByte s p
    (b.getLsbD 7 = true ↔ ∃ r, (s.port p).slots = .answered r)
    ∧ (b.getLsbD 6 = true ↔ ∃ r, (s.port p).slots = .pending r)
    ∧ b.getLsbD 5 = (s.port p).overrun
    ∧ (b >>> 3) &&& 3 = (match (s.port p).lastSend with
        | .good => 0
        | .crc => 1
        | .runt => 2
        | .long => 3)
    ∧ (p = checkPort → b &&& 7 = 0)
    ∧ ∀ k, p = agentPort k →
      (b.getLsbD 2 = true ↔ s.rstAsserted = false ∧ (s.agent k).state ≠ .detached
        ∧ ((s.notice k).lost = true
          ∨ ∃ n ∈ (s.notice k).queue, (s.notice k).mask.getLsbD (noticeKindCode n.notice - 1) = true))
      ∧ b &&& 3 = (match (s.agent k).state with
        | .detached => 0
        | .attached => 1
        | .fenced => 2)

/-- The four transaction commands open a transaction at a falling edge of SEL# in the same way; whole is the
falling edge followed by the rising edge; and an edge that the level of SEL# does not allow, or one that ends no
open transaction or one whose kind byte is not the row's own, changes no more than the level (R164, R172, log entries
1 and 12). SDO is driven from the falling edge to the rising edge, and never while RST# is asserted (R162, R172, log
entry 19). -/
def Obligations.TransactionsOpenAndClose : Prop :=
  ∀ (s : State) (p : PortNo) (bits : List Bool),
    (s.rstAsserted = true → sdoDriven s p = false)
    ∧ (∀ c ∈ [Instr.send p .opens, .collect p .opens, .portReset p .opens, .ignoredTransaction p .opens],
      (∀ t, exec c s = .next t → (sdoDriven t p = true ↔ s.rstAsserted = false))
      ∧ ((s.port p).selLow = true → exec c s = .next s)
      ∧ ((s.port p).selLow = false → s.rstAsserted = true →
        exec c s = .next (s.setPort p { s.port p with selLow := true, opened := none }))
      ∧ ((s.port p).selLow = false → s.rstAsserted = false →
        (∀ r, (s.port p).slots = .answered r →
          exec c s = .next (s.setPort p { s.port p with
            selLow := true, opened := some { status := statusByte s p, reply := some (replyFrame r) } }))
        ∧ ((∀ r, (s.port p).slots ≠ .answered r) →
          exec c s = .next (s.setPort p { s.port p with
            selLow := true, opened := some { status := statusByte s p, reply := none } }))))
    ∧ (∀ c ∈ [Instr.send p (.closes bits), .collect p (.closes bits), .portReset p (.closes bits), .ignoredTransaction p (.closes bits)],
      (∀ t, exec c s = .next t → sdoDriven t p = false)
      ∧ ((s.port p).selLow = false → exec c s = .next s)
      ∧ ((s.port p).selLow = true → (s.port p).opened = none ∨ wellFormed c = false →
        exec c s = .next (s.setPort p { s.port p with selLow := false, opened := none })))
    ∧ ∀ t, exec (.send p .opens) s = .next t →
      exec (.send p (.whole bits)) s = exec (.send p (.closes bits)) t
      ∧ exec (.collect p (.whole bits)) s = exec (.collect p (.closes bits)) t
      ∧ exec (.portReset p (.whole bits)) s = exec (.portReset p (.closes bits)) t
      ∧ exec (.ignoredTransaction p (.whole bits)) s = exec (.ignoredTransaction p (.closes bits)) t

/-- The end of a SEND, a transaction whose first byte is 53h (R163, R164, R166, R167). A frame judged RUNT, LONG or
CRC is discarded, and LAST_SEND records the judgment; any other is good: it enters an IDLE port's request slot, and is
discarded as an overrun by any other port. -/
def Obligations.SendJudgesAndStoresFrames : Prop :=
  ∀ bits : List Bool,
    let send := fun p => exec (.send p (.closes (linkBits [0x53] ++ bits)))
    let bytes := wholeBytes bits
    let len := (bytes.getD 4 0).toNat
    let runt := bytes.length < 6 ∨ bytes.length < 6 + len
    let long := 32 < len ∨ 6 + len < bytes.length
    let crc := bytes.getD (5 + len) 0 ≠ crc8 (bytes.take (5 + len))
    let request : Request :=
      { kind := bytes.getD 0 0, seqTag := bytes.getD 1 0, epoch := bytes.getD 2 0 ++ bytes.getD 3 0, body := (bytes.drop 5).take len }
    ∀ (s : State) (p : PortNo) (o : Opened), (s.port p).selLow = true → (s.port p).opened = some o →
      let closed : LastSend → Port := fun judged => { s.port p with
        lastSend := judged, selLow := false, opened := none
        sdo := linkBits [o.status] ++ List.replicate bits.length false }
      (runt → send p s = .next (s.setPort p (closed .runt)))
      ∧ (¬runt → long → send p s = .next (s.setPort p (closed .long)))
      ∧ (¬runt → ¬long → crc → send p s = .next (s.setPort p (closed .crc)))
      ∧ (¬runt → ¬long → ¬crc → (s.port p).slots = .idle →
        send p s = .next (s.setPort p { closed .good with slots := .pending request, overrun := false }))
      ∧ (¬runt → ¬long → ¬crc → (s.port p).slots ≠ .idle →
        send p s = .next (s.setPort p { closed .good with overrun := true }))

/-- A request frame, sent bit by bit with up to seven bits after its last byte, is judged good and reads
back as the same request, for every kind, sequence tag, epoch and body of at most 32 bytes (R162, R166, R173). -/
def Obligations.RequestFrameReadsBack : Prop :=
  ∀ (r : Request) (extra : List Bool), r.body.length ≤ 32 → extra.length < 8 →
    judgeFrame (wholeBytes (linkBits (requestFrame r) ++ extra)) = .good r

/-- The end of a COLLECT, a transaction whose first byte is 43h (R164, R168): the port shifted the captured frame, or
the empty marker, then 00h, whatever was clocked on SDI; the reply slot empties when the whole frame was clocked out. -/
def Obligations.CollectShiftsTheReply : Prop :=
  ∀ (s : State) (p : PortNo) (status : Byte) (bits : List Bool), (s.port p).selLow = true →
    let n := bits.length
    let collect := exec (.collect p (.closes (linkBits [0x43] ++ bits))) s
    ((s.port p).opened = some { status := status, reply := none } →
      collect = .next (s.setPort p { s.port p with
        selLow := false, opened := none, sdo := linkBits [status] ++ List.replicate n false }))
    ∧ ∀ frame, (s.port p).opened = some { status := status, reply := some frame } →
      (8 * frame.length ≤ n →
        collect = .next (s.setPort p { s.port p with
          slots := .idle, selLow := false, opened := none
          sdo := linkBits (status :: frame) ++ List.replicate (n - 8 * frame.length) false }))
      ∧ (n < 8 * frame.length →
        collect = .next (s.setPort p { s.port p with
          selLow := false, opened := none, sdo := (linkBits (status :: frame)).take (8 + n) }))

/-- The end of a PORT_RESET, a transaction whose first byte is 52h (R164, R169): the five steps, at an agent port and
at the check port. -/
def Obligations.PortResetEmptiesThePort : Prop :=
  ∀ (s : State) (p : PortNo) (o : Opened) (bits : List Bool), (s.port p).selLow = true → (s.port p).opened = some o →
    let after : Port := { slots := .idle, overrun := false, lastSend := .good, selLow := false, opened := none
                          sdo := linkBits [o.status] ++ List.replicate bits.length false }
    let portReset := exec (.portReset p (.closes (linkBits [0x52] ++ bits))) s
    (∀ k, p = agentPort k → portReset = .next ((s.setPort p after).setCursor k none))
    ∧ (p = checkPort → portReset = .next (s.setPort p after))

/-- The end of a transaction whose first byte is none of 53h, 43h and 52h, or is incomplete: the port has only shifted
(R164). -/
def Obligations.IgnoredTransactionOnlyShifts : Prop :=
  ∀ (s : State) (p : PortNo) (o : Opened) (bits : List Bool),
    (bits.length < 8 ∨ ∃ b rest, bits = linkBits [b] ++ rest ∧ b ∉ [(0x53 : Byte), 0x43, 0x52]) →
    (s.port p).selLow = true → (s.port p).opened = some o →
    exec (.ignoredTransaction p (.closes bits)) s = .next (s.setPort p { s.port p with
      selLow := false, opened := none
      sdo := (linkBits [o.status] ++ List.replicate bits.length false).take bits.length })

/-! ### Intake and the common checks -/

/-- The arbiter's round robin (R170): the port picked is the engine-bound one nearest after the last port
served, wrapping from the check port to port 0; none is picked where no port is engine-bound. -/
def Obligations.ArbiterIsRoundRobin : Prop :=
  ∀ s : State,
    let bound := fun p => ∃ r, (s.port p).slots = .pending r ∧ (p = checkPort ∨ r.kind ∉ [(0x11 : Byte), 0x12, 0x13])
    (∀ p, arbiterPick s = some p ↔
      bound p ∧ ∀ q, bound q → (p - (s.lastServed + 1)).val ≤ (q - (s.lastServed + 1)).val)
    ∧ (arbiterPick s = none ↔ ∀ p, ¬bound p)

/-- A kind that the port may not send is refused UNKNOWN_REQUEST, and a check-port request of a known kind with
a body of another length BAD_FIELD (R116 check 1, R117). Nothing else changes but the arbiter's pointer. -/
def Obligations.UnknownKindsAreRefused : Prop :=
  ∀ (s : State) (r : Request),
    (∀ p, EngineReady s p r →
      (p = checkPort → r.kind ∉ [(0x16 : Byte), 0x17, 0x18]) → (p ≠ checkPort → r.kind = 0 ∨ 0x16 < r.kind) →
      exec (.unknownRequest p) s = .next (replied p r .unknownRequest [] (s.serve p)))
    ∧ ∀ kc ∈ [(ReqKind.status, Instr.status checkPort), (.checkToken, .checkToken), (.checkAgent, .checkAgent)],
      EngineReady s checkPort r → r.kind = kc.1.code → r.body.length ≠ kc.1.bodyLength →
      exec kc.2 s = .next (replied checkPort r .badField [] (s.serve checkPort))

/-- Checks 2 to 5 of R116 in their order, for every kind an agent port may send, the notice requests included
(R117); the refusals change no state but the port's slots and, for an engine request, the arbiter's pointer
(R118). -/
def Obligations.CommonChecksInOrder : Prop :=
  ∀ (s : State) (k : AgentNo) (kind : ReqKind) (c : Instr) (r : Request),
    commandOf k kind = some c → r.kind = kind.code →
    (if IsNoticeRequest kind then NoticeReady s k r else EngineReady s (agentPort k) r) →
    let epoch := num2 (s.agent k).epoch.toNat
    let refused := fun (o : ReplyOutcome) (body : List Byte) =>
      exec c s = .next (replied (agentPort k) r o body
        (if IsNoticeRequest kind then s else (s.serve (agentPort k))))
    let lengthOk := r.body.length = kind.bodyLength
    let stateOk := stateAdmits kind (s.agent k).state = true
    let epochOk := SkipsEpoch kind ∨ r.epoch = (s.agent k).epoch
    (¬lengthOk → refused .badField [])
    ∧ (lengthOk → ¬stateOk →
      ((s.agent k).state = .detached → refused .notAttached [])
      ∧ ((s.agent k).state = .fenced → refused .fenced [])
      ∧ ((s.agent k).state = .attached → kind = .attach → refused .alreadyAttached epoch)
      ∧ ((s.agent k).state = .attached → kind = .resync → refused .notFenced epoch))
    ∧ (lengthOk → stateOk → ¬epochOk → refused .staleEpoch [])
    ∧ (lengthOk → stateOk → epochOk → IsAdminKind kind → (s.accessOf k).admin = false → refused .notAdmin [])

/-! ### ACQUIRE -/

/-- The four grant conditions in order, with the blocked reason and blocker of the first that fails (R28, R49):
ahead lists the waiters ahead, head first. -/
def Obligations.GrantConditionsInOrder : Prop :=
  ∀ (s : State) (c : Claim) (ahead : List Waiter),
    let taken := fun i => ∃ l, s.lease i = .held l ∧ conflicts l.range l.mode c.range c.mode = true
    let barred := fun w : Waiter => conflicts w.claim.range w.claim.mode c.range c.mode = true
    let limit := (s.accessOf c.agent).leaseLimit
    (∀ i l, s.lease i = .held l → taken i → (∀ j < i, ¬taken j) →
      grantVerdict s c ahead = .blocked (.conflict { slot := i, gen := l.gen } l.holder))
    ∧ ((∀ i, ¬taken i) →
      (∀ before w behind, ahead = before ++ w :: behind → (∀ v ∈ before, ¬barred v) → barred w →
        grantVerdict s c ahead = .blocked (.earlierWaiter w.id w.claim.agent))
      ∧ ((∀ w ∈ ahead, ¬barred w) →
        (limit ≤ (s.agent c.agent).leaseCount → grantVerdict s c ahead = .blocked (.agentLimit limit))
        ∧ ((s.agent c.agent).leaseCount < limit →
          (∀ i, LowestFreeSlot s i → grantVerdict s c ahead = .grantable i)
          ∧ ((∀ i, ∃ l, s.lease i = .held l) → grantVerdict s c ahead = .blocked .tableFull))))

/-- A grantable ACQUIRE is granted in its own action: the record of R4 stands in the lowest FREE slot under the
slot's next generation, with the counter's token; the holder's count and the token counter advance (R2, R12,
R30). The new counter value is the first after the token given that no live lease, the new one included, carries. -/
def Obligations.AcquireGrants : Prop :=
  ∀ (s : State) (k : AgentNo) (r : Request) (f : AcquireFields) (d : DomainNo) (i : LeaseIdx),
    let c := requestedClaim s k f d
    AcquireAdmitted s k r f → ClaimFits s c →
    (∀ j l, s.lease j = .held l → conflicts l.range l.mode c.range c.mode = false) →
    (∀ w ∈ aheadIfQueued s c, conflicts w.claim.range w.claim.mode c.range c.mode = false) →
    (s.agent k).leaseCount < (s.accessOf k).leaseLimit → LowestFreeSlot s i →
    let gen := s.leases[i].nextGen
    let lease : Lease :=
      { gen := gen, holder := k, domain := d, range := f.range, mode := f.mode, priority := f.priority, token := s.tokenCounter
        duration := c.duration, remaining := c.duration, warn := c.warn, tag := f.tag, state := .live, renewals := 0, origin := none }
    let placed := { s with
      lastServed := agentPort k
      leases := s.leases.set i { content := .held lease, nextGen := gen + 1 }
      agents := s.agents.set k { s.agent k with leaseCount := (s.agent k).leaseCount + 1 } }
    exec (.acquire k) s = .next (replied (agentPort k) r .granted
      (leaseIdBytes { slot := i, gen := gen } ++ tokenBytes s.tokenCounter ++ num2 c.duration)
      { placed with tokenCounter := advanceToken (tokenHeld placed) 64 s.tokenCounter })

/-- The advance of the token counter (R12): from a non-zero value that a live lease carries, it ends on the
first later value, wrapping from 4,294,967,295 to 1, that no live lease carries. -/
def Obligations.TokenCounterSkipsHeldTokens : Prop :=
  ∀ (s : State) (i : LeaseIdx) (l : Lease), s.lease i = .held l → l.token ≠ 0 →
    let held := fun t => ∃ j m, s.lease j = .held m ∧ m.token = t
    let next := fun t : Token => if t = 0xFFFFFFFF then 1 else t + 1
    let after := advanceToken (tokenHeld s) 64 l.token
    ¬held after ∧ after ≠ 0
      ∧ ∃ n, 1 ≤ n ∧ n ≤ 64 ∧ after = Nat.repeat next n l.token ∧ ∀ m, 1 ≤ m → m < n → held (Nat.repeat next m l.token)

/-- A claim that passes the nine checks and is not grantable becomes a waiter, where the agent has wait room
and the list an empty slot (R34, R40, R42, R44), with no recall: it is NORMAL, or recall is off in its domain. The
list's classes are in order (the ninth law). -/
def Obligations.AcquireQueues : Prop :=
  ∀ (s : State) (k : AgentNo) (r : Request) (f : AcquireFields) (d : DomainNo) (why : Blocked) (i : WaitIdx),
    let c := requestedClaim s k f d
    AcquireAdmitted s k r f → ClaimFits s c → NoSelfConflict s c → ClassesInOrder s →
    grantVerdict s c (aheadIfQueued s c) = .blocked why → f.waitLimit ≠ 0 →
    (s.agent k).waitCount < (s.accessOf k).waitLimit → LowestEmptyWaitSlot s i →
    (c.priority = .normal ∨ (s.domain d).recallEnabled = false) →
    let gen := (s.waitSlot i).nextGen
    let w : Waiter :=
      { id := { slot := i, gen := gen }, claim := c
        left := if f.waitLimit = 65535 then .unbounded else .bounded f.waitLimit
        arrival := s.arrivals, blocked := why }
    let urgent := s.waiters.filter fun v => decide (v.claim.priority = .urgent)
    let normal := s.waiters.filter fun v => decide (v.claim.priority = .normal)
    exec (.acquire k) s = .next (replied (agentPort k) r .queued
      (waitIdBytes w.id ++ blockedBytes why ++ num1 (aheadIfQueued s c).length ++ num1 0)
      { s with
        lastServed := agentPort k
        waiters := if c.priority = .urgent then urgent ++ w :: normal else s.waiters ++ [w]
        waitSlots := s.waitSlots.set i { memory := none, nextGen := gen + 1 }
        arrivals := s.arrivals + 1
        agents := s.agents.set k { s.agent k with waitCount := (s.agent k).waitCount + 1 } })

/-- An URGENT claim queued in a domain with recall enabled recalls every conflicting LIVE NORMAL lease of another
agent (R35, R95, R96, R97): each becomes RECALLED with the waiter as origin and Remaining lowered to the grace
where larger, and its holder is posted a RECALL, in slot order. The queueing is as for any other waiter. -/
def Obligations.UrgentAcquireRecalls : Prop :=
  ∀ (s : State) (k : AgentNo) (r : Request) (f : AcquireFields) (d : DomainNo) (why : Blocked) (i : WaitIdx),
    let c := requestedClaim s k f d
    AcquireAdmitted s k r f → ClaimFits s c → NoSelfConflict s c → ClassesInOrder s →
    grantVerdict s c (aheadIfQueued s c) = .blocked why → f.waitLimit ≠ 0 →
    (s.agent k).waitCount < (s.accessOf k).waitLimit → LowestEmptyWaitSlot s i →
    c.priority = .urgent → (s.domain d).recallEnabled = true →
    let gen := (s.waitSlot i).nextGen
    let w : Waiter :=
      { id := { slot := i, gen := gen }, claim := c
        left := if f.waitLimit = 65535 then .unbounded else .bounded f.waitLimit
        arrival := s.arrivals, blocked := why }
    let grace := (s.domain d).recallGrace
    let recalled := fun (j : LeaseIdx) (l : Lease) =>
      s.lease j = .held l ∧ conflicts l.range l.mode c.range c.mode = true ∧ l.state = .live ∧ l.priority = .normal ∧ l.holder ≠ k
    let posts := fun a => (liveLeases s).filter fun p =>
      decide (conflicts p.2.range p.2.mode c.range c.mode = true ∧ p.2.state = .live ∧ p.2.priority = .normal ∧ p.2.holder ≠ k ∧ p.2.holder = a)
    let count := ((List.finRange 8).map fun a => (posts a).length).sum
    let urgent := s.waiters.filter fun v => decide (v.claim.priority = .urgent)
    let normal := s.waiters.filter fun v => decide (v.claim.priority = .normal)
    ∃ t, exec (.acquire k) s = .next t
      ∧ t = replied (agentPort k) r .queued
        (waitIdBytes w.id ++ blockedBytes why ++ num1 (aheadIfQueued s c).length ++ num1 count)
        { s with
          lastServed := agentPort k
          waiters := urgent ++ w :: normal
          waitSlots := s.waitSlots.set i { memory := none, nextGen := gen + 1 }
          arrivals := s.arrivals + 1
          agents := s.agents.set k { s.agent k with waitCount := (s.agent k).waitCount + 1 }
          leases := t.leases
          notices := t.notices }
      ∧ (∀ j : LeaseIdx, t.leases[j].nextGen = s.leases[j].nextGen)
      ∧ (∀ j l, recalled j l →
        t.lease j = .held { l with state := .recalled, origin := some w.id, remaining := min l.remaining grace })
      ∧ (∀ j, (∀ l, ¬recalled j l) → t.lease j = s.lease j)
      ∧ ∀ a, t.notice a = (posts a).foldl
        (fun q p => storeNotice (.recall { slot := p.1, gen := p.2.gen } (min p.2.remaining grace) k) q) (s.notice a)

/-- ACQUIRE's refusals in order, from the field check on (R21, R23 to R27, R31 to R33), with what each carries. Nothing
else changes but the arbiter's pointer. That WAIT_LIMIT is tested as limit ≤ count, where R32 says equals, and a full
list as no empty wait slot, is the model's deduction from R113 and R39 (log entry 15). -/
def Obligations.AcquireRefusesInOrder : Prop :=
  (∀ (s : State) (k : AgentNo) (r : Request), Admitted s k .acquire r →
    let base := natOfBytes (r.body.take 5) / 1048576
    let count := natOfBytes (r.body.take 5) % 1048576
    let code := fun n => (r.body.getD n 0).toNat
    (count = 0 ∨ 1048576 < base + count ∨ 1 < code 5 ∨ 1 < code 6 ∨ 1 < code 13 →
      exec (.acquire k) s = .next (replied (agentPort k) r .badField [] (s.serve (agentPort k)))))
  ∧ ∀ (s : State) (k : AgentNo) (r : Request) (f : AcquireFields),
    AcquireAdmitted s k r f →
    let refused := fun (o : ReplyOutcome) (body : List Byte) =>
      exec (.acquire k) s = .next (replied (agentPort k) r o body (s.serve (agentPort k)))
    ((∀ e, (s.domain e).bound ≤ f.range.base) → refused .outOfSpace (num3 (s.domain 15).bound))
    ∧ ∀ d, (∀ e < d, (s.domain e).bound ≤ f.range.base) → f.range.base < (s.domain d).bound →
      let c := requestedClaim s k f d
      let access := s.accessOf k
      let inDomain := rangeEnd f.range ≤ (s.domain d).bound
      let maskOk := access.mask.getLsbD d.val = true
      let modeOk := f.mode = .exclusive → access.exclusive = true
      let urgentOk := f.priority = .urgent → access.urgent = true
      let durationOk := c.duration ≤ (s.domain d).maxDuration
      (¬inDomain → refused .spansDomains (num1 d.val ++ num3 (s.domain d).bound))
      ∧ (inDomain → ¬maskOk → refused .domainDenied [])
      ∧ (inDomain → maskOk → ¬modeOk → refused .modeDenied [])
      ∧ (inDomain → maskOk → modeOk → ¬urgentOk → refused .urgentDenied [])
      ∧ (inDomain → maskOk → modeOk → urgentOk → ¬durationOk → refused .durationTooLong (num2 (s.domain d).maxDuration))
      ∧ (inDomain → maskOk → modeOk → urgentOk → durationOk → c.duration ≤ c.warn → refused .badWarn (num2 c.duration))
      ∧ (ClaimFits s c →
        let own := fun j => ∃ l, s.lease j = .held l ∧ l.holder = k ∧ conflicts l.range l.mode c.range c.mode = true
        (∀ j l, s.lease j = .held l → own j → (∀ i < j, ¬own i) →
          refused .selfConflict (leaseIdBytes { slot := j, gen := l.gen }))
        ∧ (NoSelfConflict s c → ∀ why, grantVerdict s c (aheadIfQueued s c) = .blocked why →
          (f.waitLimit = 0 → refused .busy (blockedBytes why))
          ∧ (f.waitLimit ≠ 0 → access.waitLimit ≤ (s.agent k).waitCount → refused .waitLimit (num1 access.waitLimit))
          ∧ (f.waitLimit ≠ 0 → (s.agent k).waitCount < access.waitLimit →
            (∀ i : WaitIdx, ∃ w ∈ s.waiters, w.id.slot = i) → refused .waitlistFull (blockedBytes why))))

/-! ### RENEW, TRIM, DOWNGRADE, UPGRADE, RELEASE, FORCE_REVOKE -/

/-- Checks 5 to 7 of R61 with what they carry (R62): LEASE_ENDED, NO_SUCH_LEASE and NOT_HOLDER change nothing but
the arbiter's pointer. -/
def Obligations.LeaseIdRefusals : Prop :=
  ∀ (s : State) (k : AgentNo) (r : Request) (id : LeaseId) (rest : List Byte),
    ∀ kind ∈ [ReqKind.renew, .trim, .downgrade, .upgrade, .release], ∀ c, commandOf k kind = some c →
    Admitted s k kind r → r.body = leaseIdBytes id ++ rest →
    let refused := fun (o : ReplyOutcome) (body : List Byte) =>
      exec c s = .next (replied (agentPort k) r o body (s.serve (agentPort k)))
    (∀ m, s.lease id.slot = .free (some m) → m.gen = id.gen →
      refused .leaseEnded ([endCauseCode m.cause] ++ tokenBytes m.token ++ num1 m.holder.val))
    ∧ (∀ m, s.lease id.slot = .free (some m) → m.gen ≠ id.gen → refused .noSuchLease [])
    ∧ (s.lease id.slot = .free none → refused .noSuchLease [])
    ∧ (∀ l, s.lease id.slot = .held l → l.gen ≠ id.gen → refused .noSuchLease [])
    ∧ ∀ l, s.lease id.slot = .held l → l.gen = id.gen → l.holder ≠ k → refused .notHolder (num1 l.holder.val)

/-- RENEW of the agent's own lease: the three checks of R64 and the effect of R65. -/
def Obligations.RenewReloads : Prop :=
  ∀ (s : State) (k : AgentNo) (r : Request) (id : LeaseId) (l : Lease) (asked : Nat),
    Admitted s k .renew r → r.body = leaseIdBytes id ++ num2 asked → asked ≤ 65535 → OwnLease s k id l →
    let new := if asked = 0 then l.duration else asked
    let max := (s.domain l.domain).maxDuration
    let renewals := if l.renewals < 255 then l.renewals + 1 else 255
    let answers := fun (o : ReplyOutcome) (body : List Byte) (t : State) =>
      exec (.renew k) s = .next (replied (agentPort k) r o body (t.serve (agentPort k)))
    (l.state = .recalled → answers .recalled (num2 l.remaining) s)
    ∧ (l.state = .live → max < new → answers .durationTooLong (num2 max) s)
    ∧ (l.state = .live → new ≤ max → new ≤ l.warn → answers .badWarn (num2 l.warn) s)
    ∧ (l.state = .live → new ≤ max → l.warn < new →
      answers .ok (leaseIdBytes id ++ num2 new ++ num1 renewals)
        (s.setLease id.slot (.held { l with duration := new, remaining := new, renewals := renewals })))

/-- TRIM of the agent's own lease, LIVE or RECALLED (R67, R68): a new range that is empty or not inside the old
one is refused with the old one; otherwise the range alone changes and the wait list is re-examined. -/
def Obligations.TrimNarrows : Prop :=
  ∀ (s : State) (k : AgentNo) (r : Request) (id : LeaseId) (l : Lease) (new : Range),
    Admitted s k .trim r → r.body = leaseIdBytes id ++ rangeBytes new → new.base < unitSpace → new.count < unitSpace →
    OwnLease s k id l →
    let inside := new.count ≠ 0 ∧ l.range.base ≤ new.base ∧ new.base + new.count ≤ l.range.base + l.range.count
    (¬inside → exec (.trim k) s =
      .next (replied (agentPort k) r .badField (rangeBytes l.range) (s.serve (agentPort k))))
    ∧ (inside → exec (.trim k) s =
      .next (replied (agentPort k) r .ok (leaseIdBytes id ++ rangeBytes new)
        (reexamine ((s.setLease id.slot (.held { l with range := new })).serve (agentPort k))).1))

/-- DOWNGRADE of the agent's own lease, LIVE or RECALLED (R70): the mode alone changes and the wait list is
re-examined; a SHARED lease is refused NOT_EXCLUSIVE. -/
def Obligations.DowngradeWeakens : Prop :=
  ∀ (s : State) (k : AgentNo) (r : Request) (id : LeaseId) (l : Lease),
    Admitted s k .downgrade r → r.body = leaseIdBytes id → OwnLease s k id l →
    (l.mode = .shared → exec (.downgrade k) s =
      .next (replied (agentPort k) r .notExclusive [] (s.serve (agentPort k))))
    ∧ (l.mode = .exclusive → exec (.downgrade k) s =
      .next (replied (agentPort k) r .ok (leaseIdBytes id)
        (reexamine ((s.setLease id.slot (.held { l with mode := .shared })).serve (agentPort k))).1))

/-- UPGRADE of the agent's own lease: the four checks of R72 in order, and the effect of R73. -/
def Obligations.UpgradeStrengthens : Prop :=
  ∀ (s : State) (k : AgentNo) (r : Request) (id : LeaseId) (l : Lease),
    Admitted s k .upgrade r → r.body = leaseIdBytes id → OwnLease s k id l →
    let answers := fun (o : ReplyOutcome) (body : List Byte) (t : State) =>
      exec (.upgrade k) s = .next (replied (agentPort k) r o body (t.serve (agentPort k)))
    let inTheWay := fun j => j ≠ id.slot ∧ ∃ m, s.lease j = .held m ∧ overlaps m.range l.range = true
    (l.state = .recalled → answers .recalled (num2 l.remaining) s)
    ∧ (l.state = .live → l.mode = .exclusive → answers .notShared [] s)
    ∧ (l.state = .live → l.mode = .shared → (s.accessOf k).exclusive = false → answers .modeDenied [] s)
    ∧ (l.state = .live → l.mode = .shared → (s.accessOf k).exclusive = true →
      (∀ j m, s.lease j = .held m → inTheWay j → (∀ i < j, ¬inTheWay i) →
        answers .conflict (leaseIdBytes { slot := j, gen := m.gen } ++ num1 m.holder.val) s)
      ∧ ((∀ j, ¬inTheWay j) →
        answers .ok (leaseIdBytes id ++ tokenBytes l.token) (s.setLease id.slot (.held { l with mode := .exclusive }))))

/-- RELEASE of the agent's own lease, LIVE or RECALLED (R14, R75): the slot becomes FREE with the memory of the
lease, the holder's count is lowered, and the wait list is re-examined. -/
def Obligations.ReleaseEndsTheLease : Prop :=
  ∀ (s : State) (k : AgentNo) (r : Request) (id : LeaseId) (l : Lease),
    Admitted s k .release r → r.body = leaseIdBytes id → OwnLease s k id l →
    let memory : LeaseMemory := { gen := l.gen, cause := .released, token := l.token, holder := k }
    let freed := (s.setLease id.slot (.free (some memory))).setAgent k
      { s.agent k with leaseCount := (s.agent k).leaseCount - 1 }
    let q := reexamine (freed.serve (agentPort k))
    exec (.release k) s =
      .next (replied (agentPort k) r .ok (leaseIdBytes id ++ tokenBytes l.token ++ num1 q.2) q.1)

/-- FORCE_REVOKE by an admin (R105, R106): an ended id and an id of no lease are refused; a live lease of any
holder ends REVOKED, the holder is posted a REVOKED notice, and the wait list is re-examined. -/
def Obligations.ForceRevokeEndsTheLease : Prop :=
  ∀ (s : State) (k : AgentNo) (r : Request) (id : LeaseId),
    Admitted s k .forceRevoke r → r.body = leaseIdBytes id →
    let refused := fun (o : ReplyOutcome) (body : List Byte) =>
      exec (.forceRevoke k) s = .next (replied (agentPort k) r o body (s.serve (agentPort k)))
    (∀ m, s.lease id.slot = .free (some m) → m.gen = id.gen →
      refused .leaseEnded ([endCauseCode m.cause] ++ tokenBytes m.token ++ num1 m.holder.val))
    ∧ (∀ m, s.lease id.slot = .free (some m) → m.gen ≠ id.gen → refused .noSuchLease [])
    ∧ (s.lease id.slot = .free none → refused .noSuchLease [])
    ∧ (∀ l, s.lease id.slot = .held l → l.gen ≠ id.gen → refused .noSuchLease [])
    ∧ ∀ l, s.lease id.slot = .held l → l.gen = id.gen →
      let memory : LeaseMemory := { gen := l.gen, cause := .revoked, token := l.token, holder := l.holder }
      let freed := (s.setLease id.slot (.free (some memory))).setAgent l.holder
        { s.agent l.holder with leaseCount := (s.agent l.holder).leaseCount - 1 }
      let told := freed.setNotice l.holder (storeNotice (.revoked id l.tag) (s.notice l.holder))
      let q := reexamine (told.serve (agentPort k))
      exec (.forceRevoke k) s =
        .next (replied (agentPort k) r .ok (leaseIdBytes id ++ num1 l.holder.val ++ num1 q.2) q.1)

/-! ### Fencing, agents and access rights -/

/-- A fence of an ATTACHED agent (R101, R102): state and cause are set, its leases end FENCED, its waiters are
dropped, its cursor closes, one FENCED notice with the two numbers is posted, and nothing else changes. Waiters
stand in different wait slots. -/
def Obligations.FenceEndsEverythingOfTheAgent : Prop :=
  ∀ (s : State) (j : AgentNo) (cause : FenceCause), (s.agent j).state = .attached → WaitSlotsDistinct s →
    let t := fence j cause s
    AllOfAgentEnded s t j .fenced
    ∧ t.agent j = { s.agent j with
        state := .fenced, fenceCause := some cause, leaseCount := (t.agent j).leaseCount, waitCount := (t.agent j).waitCount }
    ∧ t = { s with
        leases := t.leases, waiters := t.waiters, waitSlots := t.waitSlots, agents := t.agents
        cursors := s.cursors.set j none
        notices := s.notices.set j (storeNotice (.fenced cause (holdings s j).length (waitersOf s j).length) (s.notice j)) }

/-- EVICT by an admin (R108, R109): an agent number above 7 and a named agent that is DETACHED or FENCED are
refused; an ATTACHED one is fenced with cause EVICTED, and the wait list is re-examined. -/
def Obligations.EvictFencesTheAgent : Prop :=
  ∀ (s : State) (k : AgentNo) (r : Request), Admitted s k .evict r →
    (∀ n, 8 ≤ n → n < 256 → r.body = num1 n →
      exec (.evict k) s = .next (replied (agentPort k) r .badField [] (s.serve (agentPort k))))
    ∧ ∀ j : AgentNo, r.body = num1 j.val →
      ((s.agent j).state = .detached → exec (.evict k) s =
        .next (replied (agentPort k) r .notAttached (num1 j.val) (s.serve (agentPort k))))
      ∧ ((s.agent j).state = .fenced → exec (.evict k) s =
        .next (replied (agentPort k) r .fenced (num1 j.val) (s.serve (agentPort k))))
      ∧ ((s.agent j).state = .attached →
        let q := reexamine (fence j .evicted (s.serve (agentPort k)))
        exec (.evict k) s = .next (replied (agentPort k) r .ok
          (num1 j.val ++ num1 (holdings s j).length ++ num1 (waitersOf s j).length ++ num1 q.2) q.1))

/-- ATTACH of a DETACHED agent (R119, R147) and RESYNC of a FENCED one (R121): exactly the fields named change. -/
def Obligations.AttachAndResyncStartAnEpoch : Prop :=
  ∀ (s : State) (k : AgentNo) (r : Request),
    let a := s.agent k
    (Admitted s k .attach r → exec (.attach k) s = .next (replied (agentPort k) r .ok (num2 (a.epoch + 1).toNat)
      { s with
        lastServed := agentPort k
        agents := s.agents.set k { a with state := .attached, epoch := a.epoch + 1, fenceCause := none, denials := 0 }
        notices := s.notices.set k { queue := [], nextSeq := 0, mask := 0x7F, lost := false, lostCount := 0 }
        cursors := s.cursors.set k none }))
    ∧ (Admitted s k .resync r → exec (.resync k) s = .next (replied (agentPort k) r .ok (num2 (a.epoch + 1).toNat)
      { s with
        lastServed := agentPort k
        agents := s.agents.set k { a with state := .attached, epoch := a.epoch + 1, fenceCause := none }
        cursors := s.cursors.set k none }))

/-- DETACH of an ATTACHED or a FENCED agent (R120): its state becomes DETACHED, its leases end DETACHED, its
waiters are dropped, its notice queue is emptied and its cursor closed, nothing else changes, and then the wait
list is re-examined. Waiters stand in different wait slots. -/
def Obligations.DetachEndsEverythingOfTheAgent : Prop :=
  ∀ (s : State) (k : AgentNo) (r : Request), Admitted s k .detach r → WaitSlotsDistinct s →
    ∃ u, AllOfAgentEnded s u k .detached
      ∧ u.agent k = { s.agent k with
          state := .detached, leaseCount := (u.agent k).leaseCount, waitCount := (u.agent k).waitCount }
      ∧ u = { s with
          leases := u.leases, waiters := u.waiters, waitSlots := u.waitSlots, agents := u.agents
          notices := s.notices.set k { s.notice k with queue := [] }
          cursors := s.cursors.set k none
          lastServed := agentPort k }
      ∧ exec (.detach k) s = .next (replied (agentPort k) r .ok
          (num1 (holdings s k).length ++ num1 (waitersOf s k).length ++ num1 (reexamine u).2) (reexamine u).1)

/-- SET_ACCESS by an admin (R124, R125): checks 6 to 9 in order; a record that passes replaces the named agent's,
and the wait list is re-examined where the lease limit rose. -/
def Obligations.SetAccessReplacesTheRecord : Prop :=
  (∀ (s : State) (k : AgentNo) (r : Request), Admitted s k .setAccess r →
    let code := fun n => (r.body.getD n 0).toNat
    (7 < code 0 ∨ 1 < code 3 ∨ 1 < code 4 ∨ code 5 = 0 ∨ 64 < code 5 ∨ code 6 = 0 ∨ 8 < code 6 ∨ 1 < code 7 →
      exec (.setAccess k) s = .next (replied (agentPort k) r .badField [] (s.serve (agentPort k)))))
  ∧ ∀ (s : State) (k j : AgentNo) (r : Request) (a : AccessRecord),
    Admitted s k .setAccess r → r.body = num1 j.val ++ accessBytes a →
    1 ≤ a.leaseLimit → a.leaseLimit ≤ 64 → 1 ≤ a.waitLimit → a.waitLimit ≤ 8 →
    let refused := fun (o : ReplyOutcome) (body : List Byte) =>
      exec (.setAccess k) s = .next (replied (agentPort k) r o body (s.serve (agentPort k)))
    let limitsOk := (s.agent j).leaseCount ≤ a.leaseLimit ∧ (s.agent j).waitCount ≤ a.waitLimit
    let uses := fun d => (∃ i l, s.lease i = .held l ∧ l.holder = j ∧ l.domain = d)
      ∨ ∃ w ∈ s.waiters, w.claim.agent = j ∧ w.claim.domain = d
    let leftOut := fun d : DomainNo => uses d ∧ a.mask.getLsbD d.val = false
    let holdsExclusive := (∃ i l, s.lease i = .held l ∧ l.holder = j ∧ l.mode = .exclusive)
      ∨ ∃ w ∈ s.waiters, w.claim.agent = j ∧ w.claim.mode = .exclusive
    let withdraws := (s.accessOf j).exclusive = true ∧ a.exclusive = false
    let set := ((s.setAccessOf j a).serve (agentPort k))
    (¬limitsOk → refused .limitBelowUse (num1 (s.agent j).leaseCount ++ num1 (s.agent j).waitCount))
    ∧ (limitsOk → ∀ d, leftOut d → (∀ e < d, ¬leftOut e) → refused .domainInUse (num1 d.val))
    ∧ (limitsOk → (∀ d, ¬leftOut d) → withdraws → holdsExclusive → refused .modeDenied [])
    ∧ (limitsOk → (∀ d, ¬leftOut d) → ¬(withdraws ∧ holdsExclusive) →
      (a.leaseLimit ≤ (s.accessOf j).leaseLimit →
        exec (.setAccess k) s = .next (replied (agentPort k) r .ok (num1 j.val ++ accessBytes a ++ num1 0) set))
      ∧ ((s.accessOf j).leaseLimit < a.leaseLimit →
        exec (.setAccess k) s =
          .next (replied (agentPort k) r .ok (num1 j.val ++ accessBytes a ++ num1 (reexamine set).2) (reexamine set).1)))

/-! ### CANCEL -/

/-- CANCEL (R41, R54, R55): the agent's own waiter leaves CANCELLED and the wait list is re-examined; every other
id is refused as the table says. Waiters stand in different wait slots. -/
def Obligations.CancelRemovesTheWaiter : Prop :=
  ∀ (s : State) (k : AgentNo) (r : Request), Admitted s k .cancel r → WaitSlotsDistinct s →
    let refused := fun (o : ReplyOutcome) (body : List Byte) =>
      exec (.cancel k) s = .next (replied (agentPort k) r o body (s.serve (agentPort k)))
    (∀ n, 24 * 1024 ≤ n → n < 65536 → r.body = num2 n → refused .badField [])
    ∧ ∀ id : WaitId, r.body = waitIdBytes id →
      (∀ w ∈ s.waiters, w.id = id →
        (w.claim.agent ≠ k → refused .notHolder (num1 w.claim.agent.val))
        ∧ (w.claim.agent = k →
          let q := reexamine { s with
            lastServed := agentPort k
            waiters := s.waiters.filter fun v => decide (v.id ≠ id)
            waitSlots := s.waitSlots.set id.slot
              { s.waitSlot id.slot with memory := some { gen := id.gen, cause := .cancelled, agent := k } }
            agents := s.agents.set k { s.agent k with waitCount := (s.agent k).waitCount - 1 } }
          exec (.cancel k) s = .next (replied (agentPort k) r .cancelled (waitIdBytes id ++ num1 q.2) q.1)))
      ∧ ((∃ w ∈ s.waiters, w.id.slot = id.slot ∧ w.id.gen ≠ id.gen) → refused .noSuchWait [])
      ∧ ((∀ w ∈ s.waiters, w.id.slot ≠ id.slot) →
        ((s.waitSlot id.slot).memory = none → refused .noSuchWait [])
        ∧ ∀ m, (s.waitSlot id.slot).memory = some m →
          (m.gen ≠ id.gen → refused .noSuchWait [])
          ∧ (m.gen = id.gen → m.agent ≠ k → refused .notHolder (num1 m.agent.val))
          ∧ (m.gen = id.gen → m.agent = k →
            (∀ lease, m.cause = .granted lease → refused .waitEnded ([0, 1] ++ leaseIdBytes lease))
            ∧ (m.cause = .lapsed → refused .waitEnded [1, 0, 0, 0])
            ∧ (m.cause = .cancelled → refused .waitEnded [2, 0, 0, 0])
            ∧ (m.cause = .dropped → refused .waitEnded [3, 0, 0, 0])))

/-! ### The domain map -/

/-- CONFIG_DOMAIN by an admin (R130 to R133): a domain number above 15, a code of recall enabled that is neither, and
a record that breaks a range or relation are refused BAD_FIELD, a bound outside its neighbours BAD_ORDER, a busy domain
DOMAIN_BUSY; otherwise the record is replaced. -/
def Obligations.ConfigDomainReplacesTheRecord : Prop :=
  (∀ (s : State) (k : AgentNo) (r : Request), Admitted s k .configDomain r →
    (15 < (r.body.getD 0 0).toNat ∨ 1 < (r.body.getD 12 0).toNat →
      exec (.configDomain k) s = .next (replied (agentPort k) r .badField [] (s.serve (agentPort k)))))
  ∧ ∀ (s : State) (k : AgentNo) (r : Request) (d : DomainNo) (new : DomainRecord),
    Admitted s k .configDomain r → r.body = num1 d.val ++ domainBytes new →
    new.bound < 16777216 → new.defaultDuration ≤ 65535 → new.maxDuration ≤ 65535 → new.defaultWarn ≤ 65535 →
    new.recallGrace ≤ 65535 →
    let refused := fun (o : ReplyOutcome) (body : List Byte) =>
      exec (.configDomain k) s = .next (replied (agentPort k) r o body (s.serve (agentPort k)))
    let fieldsOk := new.bound ≤ 1048576 ∧ 1 ≤ new.defaultDuration ∧ 1 ≤ new.maxDuration ∧ 1 ≤ new.recallGrace
      ∧ new.defaultDuration ≤ new.maxDuration ∧ new.defaultWarn < new.defaultDuration
    let lowest := if d = 0 then 0 else (s.domain (d - 1)).bound
    let highest := if d = 15 then 1048576 else (s.domain (d + 1)).bound
    let orderOk := lowest ≤ new.bound ∧ new.bound ≤ highest
    let idle := fun e => leasesIn s e = 0 ∧ waitersIn s e = 0
    let busy := fun e : DomainNo => num1 e.val ++ num1 (leasesIn s e) ++ num1 (waitersIn s e)
    let movesCut := new.bound ≠ (s.domain d).bound ∧ d ≠ 15
    (¬fieldsOk → refused .badField [])
    ∧ (fieldsOk → ¬orderOk → refused .badOrder (num3 lowest ++ num3 highest))
    ∧ (fieldsOk → orderOk → ¬idle d → refused .domainBusy (busy d))
    ∧ (fieldsOk → orderOk → idle d → movesCut → ¬idle (d + 1) → refused .domainBusy (busy (d + 1)))
    ∧ (fieldsOk → orderOk → idle d → (movesCut → idle (d + 1)) →
      exec (.configDomain k) s = .next (replied (agentPort k) r .ok (num1 d.val ++ num3 lowest ++ domainBytes new)
        ((s.setDomain d new).serve (agentPort k))))

/-! ### Notices -/

/-- NOTICE_POST and the posting of R139: an arrival's notices reach each agent's queue in order; each takes the
next number and is stored below 8 notices, or dropped and counted lost. While RST# is asserted nothing is posted. -/
def Obligations.PostingNumbersStoresOrDrops : Prop :=
  (∀ (q : NoticeState) (n : Notice),
    (q.queue.length < 8 →
      storeNotice n q = { q with queue := q.queue ++ [{ seq := q.nextSeq, notice := n }], nextSeq := q.nextSeq + 1 })
    ∧ (8 ≤ q.queue.length →
      storeNotice n q = { q with
        nextSeq := q.nextSeq + 1, lost := true, lostCount := if q.lostCount < 255 then q.lostCount + 1 else 255 }))
  ∧ ∀ (s : State) (arrival : List (AgentNo × Notice)),
    (s.rstAsserted = true → exec (.noticePost arrival) s = .next s)
    ∧ (s.rstAsserted = false → ∃ t, exec (.noticePost arrival) s = .next t ∧ t = { s with notices := t.notices }
      ∧ ∀ k, t.notice k = (arrival.filter fun p => decide (p.1 = k)).foldl (fun q p => storeNotice p.2 q) (s.notice k))

/-- NOTICE_READ (R142): the reply carries the oldest notice, or QUEUE_EMPTY, with the lost flag as it stood; the
flag is cleared, and nothing else of the part changes (draws is the model's own count of free values). -/
def Obligations.NoticeReadReportsTheOldest : Prop :=
  ∀ (s : State) (k : AgentNo) (r : Request), NoticeAdmitted s k .noticeRead r →
    let q := s.notice k
    let cleared := s.notices.set k { q with lost := false }
    (q.queue = [] → exec (.noticeRead k) s = .next (replied (agentPort k) r .queueEmpty
      (yesNo q.lost ++ num1 q.lostCount ++ [q.nextSeq]) { s with notices := cleared }))
    ∧ ∀ n rest, q.queue = n :: rest → exec (.noticeRead k) s = .next (replied (agentPort k) r .ok
      (noticeRecordBytes s.draws n ++ yesNo q.lost ++ num1 q.lostCount ++ num1 q.queue.length ++ [q.nextSeq])
      { s with notices := cleared, draws := s.draws + 1 })

/-- NOTICE_ACK, by R143's table, and SET_NOTICE_MASK (R144): a mask with bit 7 set is refused; any other
replaces the agent's, and the reply carries the mask before. -/
def Obligations.NoticeAckAndMask : Prop :=
  (∀ (s : State) (k : AgentNo) (r : Request) (seq : SeqNo), NoticeAdmitted s k .noticeAck r → r.body = [seq] →
    let q := s.notice k
    (q.queue = [] → exec (.noticeAck k) s = .next (replied (agentPort k) r .queueEmpty [q.nextSeq] s))
    ∧ ∀ n rest, q.queue = n :: rest →
      (seq ≠ n.seq → exec (.noticeAck k) s = .next (replied (agentPort k) r .seqMismatch [n.seq] s))
      ∧ (seq = n.seq → exec (.noticeAck k) s = .next (replied (agentPort k) r .ok ([seq] ++ num1 rest.length)
        { s with notices := s.notices.set k { q with queue := rest } })))
  ∧ ∀ (s : State) (k : AgentNo) (r : Request) (m : Byte), NoticeAdmitted s k .setNoticeMask r → r.body = [m] →
    (m.getLsbD 7 = true → exec (.setNoticeMask k) s = .next (replied (agentPort k) r .badField [] s))
    ∧ (m.getLsbD 7 = false → exec (.setNoticeMask k) s = .next (replied (agentPort k) r .ok
      (num1 (s.notice k).mask.toNat) { s with notices := s.notices.set k { s.notice k with mask := m.setWidth 7 } }))

/-! ### Queries and reports -/

/-- STATUS from an agent port (R157) and from the check port (R158), and DOMAIN_INFO (R135), of which a domain
number above 15 is refused: the items in order, and no change but the arbiter's pointer. -/
def Obligations.StatusAndDomainInfoReport : Prop :=
  (∀ (s : State) (r : Request),
    let device := num1 ((List.finRange 64).filter fun i =>
        match s.lease i with
        | .free _ => true
        | .held _ => false).length
      ++ num1 s.waiters.length ++ num4 s.tokenCounter.toNat ++ num2 s.tickPeriod ++ num4 s.arrivals.toNat
    (∀ k, Admitted s k .status r →
      let a := s.agent k
      let state : Byte := match a.state with
        | .detached => 0
        | .attached => 1
        | .fenced => 2
      let cause : List Byte := match a.fenceCause with
        | none => [0, 0, 0, 0]
        | some (.graceLapse id) => [1, 0] ++ leaseIdBytes id
        | some .evicted => [1, 1, 0, 0]
      exec (.status (agentPort k)) s = .next (replied (agentPort k) r .ok
        ([state] ++ num2 a.epoch.toNat ++ num1 a.leaseCount ++ num1 a.waitCount ++ cause ++ num2 a.denials ++ device)
        (s.serve (agentPort k))))
    ∧ (CheckAdmitted s .status r →
      exec (.status checkPort) s = .next (replied checkPort r .ok (num4 s.checkDenials ++ device)
        (s.serve checkPort))))
  ∧ ∀ (s : State) (k : AgentNo) (r : Request), Admitted s k .domainInfo r →
    (∀ n, 16 ≤ n → n < 256 → r.body = num1 n →
      exec (.domainInfo k) s = .next (replied (agentPort k) r .badField [] (s.serve (agentPort k))))
    ∧ ∀ d : DomainNo, r.body = num1 d.val →
      let first := if d = 0 then 0 else (s.domain (d - 1)).bound
      let leases := ((List.finRange 64).filter fun i =>
        match s.lease i with
        | .held l => decide (l.domain = d)
        | .free _ => false).length
      let waiters := (s.waiters.filter fun w => decide (w.claim.domain = d)).length
      exec (.domainInfo k) s = .next (replied (agentPort k) r .ok
        (num1 d.val ++ num3 first ++ domainBytes (s.domain d) ++ num1 leases ++ num1 waiters)
        (s.serve (agentPort k)))

/-- QUERY's own check for any filter, and QUERY_NEXT's with the cursor closed (R150, R156): both leave the cursor as it
was (R149; log entry 17). QUERY under a lease filter, and QUERY_NEXT under a lease cursor (R149 to R151, R156): the first
four live leases that meet the filter, in slot order from the start; END, with the cursor closed, where fewer than four
are met or the fourth stands in slot 63. Bits of a record that the manual gives no meaning are free values. -/
def Obligations.LeaseQueriesScanTheTable : Prop :=
  (∀ (s : State) (k : AgentNo) (r : Request), Admitted s k .query r →
    let filter := (r.body.getD 0 0).toNat
    let agent := (r.body.getD 1 0).toNat
    let base := natOfBytes (r.body.drop 2) / 1048576
    let count := natOfBytes (r.body.drop 2) % 1048576
    (2 < filter ∨ filter = 0 ∧ (count = 0 ∨ 1048576 < base + count) ∨ filter = 1 ∧ 7 < agent
        ∨ filter = 2 ∧ 7 < agent ∧ agent ≠ 255 →
      exec (.query k) s = .next (replied (agentPort k) r .badField [] (s.serve (agentPort k)))))
  ∧ (∀ (s : State) (k : AgentNo) (r : Request), Admitted s k .queryNext r → s.cursor k = none →
    exec (.queryNext k) s = .next (replied (agentPort k) r .noCursor [] (s.serve (agentPort k))))
  ∧ ∀ (s : State) (k : AgentNo) (r : Request) (f : Filter) (start : LeaseIdx) (c : Instr),
    (c = .query k ∧ Admitted s k .query r ∧ start = 0
        ∧ ((∃ j, f = .byAgent j ∧ ∃ ignored, r.body = [1] ++ num1 j.val ++ ignored)
          ∨ ∃ range ignored, f = .byRange range ∧ RangeSound range ∧ r.body = [0, ignored] ++ rangeBytes range)
      ∨ c = .queryNext k ∧ Admitted s k .queryNext r ∧ s.cursor k = some { filter := f, position := .atSlot start }) →
    let hits := (List.finRange 64).filter fun i => decide (start ≤ i) &&
      (match s.lease i, f with
        | .held l, .byRange range => overlaps l.range range
        | .held l, .byAgent j => decide (l.holder = j)
        | _, _ => false)
    let answers := fun (o : ReplyOutcome) (cursor : Option Cursor) =>
      exec c s = .next (replied (agentPort k) r o (leaseBatchBytes s (hits.take 4))
        { s with lastServed := agentPort k, draws := s.draws + 1, cursors := s.cursors.set k cursor })
    (∀ i : LeaseIdx, hits[3]? = some i → i.val < 63 →
      answers .ok (some { filter := f, position := .atSlot (i + 1) }))
    ∧ (hits[3]? = some 63 → answers .endOfQuery none)
    ∧ (hits[3]? = none → answers .endOfQuery none)

/-- QUERY under the WAITS filter, and QUERY_NEXT under a waiter cursor (R153, R154, R156): the first four waiters
that meet the filter, from the head, or from the kept waiter's resume point on, in the list or not
(WaiterCursorResumePoint); END, with the cursor closed, where the walk examines the last waiter. -/
def Obligations.WaiterQueriesWalkTheList : Prop :=
  ∀ (s : State) (k : AgentNo) (r : Request) (who : Option AgentNo) (walked : List Waiter) (c : Instr),
    (c = .query k ∧ Admitted s k .query r ∧ walked = s.waiters
        ∧ (∃ ignored, r.body = [2] ++ (match who with
            | some j => num1 j.val
            | none => [0xFF]) ++ ignored)
      ∨ c = .queryNext k ∧ Admitted s k .queryNext r
        ∧ (s.cursor k = some { filter := .waits who, position := .atHead } ∧ walked = s.waiters
          ∨ ∃ kept, s.cursor k = some { filter := .waits who, position := .afterWaiter kept }
            ∧ walked = resumeAfter s kept)) →
    let meets := fun w : Waiter => who = none ∨ who = some w.claim.agent
    let answers := fun (o : ReplyOutcome) (batch : List Waiter) (cursor : Option Cursor) =>
      exec c s = .next (replied (agentPort k) r o (waiterBatchBytes s batch)
        { s with lastServed := agentPort k, draws := s.draws + 1, cursors := s.cursors.set k cursor })
    (∀ front last rest, walked = front ++ last :: rest → rest ≠ [] → meets last →
      (front.filter fun w => decide (meets w)).length = 3 →
      answers .ok ((front.filter fun w => decide (meets w)) ++ [last])
        (some { filter := .waits who, position := .afterWaiter { id := last.id, arrival := last.arrival, priority := last.claim.priority } }))
    ∧ ((walked.filter fun w => decide (meets w)).length < 4 →
      answers .endOfQuery (walked.filter fun w => decide (meets w)) none)
    ∧ (∀ front last, walked = front ++ [last] → meets last → (front.filter fun w => decide (meets w)).length = 3 →
      answers .endOfQuery (walked.filter fun w => decide (meets w)) none)

/-- The resume point of a waiter cursor (R154): the waiter after the kept one while it is in the list; when it has
left, the first waiter of the kept class with a later arrival number, or for URGENT, with none later, the first NORMAL
waiter. Arrival numbers are compared by counting forward; that a count of 0 steps is later is the model's reading (log
entry 14). -/
def Obligations.WaiterCursorResumePoint : Prop :=
  ∀ (s : State) (kept : KeptWaiter),
    let isKept := fun w : Waiter => w.id = kept.id ∧ w.arrival = kept.arrival
    let later := fun w : Waiter => w.claim.priority = kept.priority ∧ (w.arrival - kept.arrival).toNat < 2147483648
    (∀ before w behind, s.waiters = before ++ w :: behind → (∀ v ∈ before, ¬isKept v) → isKept w →
      resumeAfter s kept = behind)
    ∧ ((∀ w ∈ s.waiters, ¬isKept w) →
      (∀ before w behind, s.waiters = before ++ w :: behind → (∀ v ∈ before, ¬later v) → later w →
        resumeAfter s kept = w :: behind)
      ∧ ((∀ w ∈ s.waiters, ¬later w) →
        (kept.priority = .normal → resumeAfter s kept = [])
        ∧ (kept.priority = .urgent → ClassesInOrder s →
          resumeAfter s kept = s.waiters.filter fun w => decide (w.claim.priority = .normal))))

/-! ### The check port -/

/-- CHECK_TOKEN (R159, R161): bad fields are refused and count nothing; then the three tests in order, each DENY
counted where R159 says. No two live leases carry the token given (the fourth law). -/
def Obligations.CheckTokenAnswers : Prop :=
  ∀ (s : State) (r : Request) (token : Token) (unit access : Nat),
    CheckAdmitted s .checkToken r → r.body = tokenBytes token ++ num3 unit ++ num1 access →
    unit < 16777216 → access < 256 →
    (∀ i j l m, s.lease i = .held l → s.lease j = .held m → l.token = token → m.token = token → i = j) →
    let answers := fun (o : ReplyOutcome) (body : List Byte) (t : State) =>
      exec .checkToken s = .next (replied checkPort r o body (t.serve checkPort))
    let fieldsOk := unit < 1048576 ∧ access ≤ 1
    (¬fieldsOk → answers .badField [] s)
    ∧ (fieldsOk → (∀ i l, s.lease i = .held l → l.token ≠ token) →
      answers .deny [0] { s with
        checkDenials := if s.checkDenials < 4294967295 then s.checkDenials + 1 else 4294967295 })
    ∧ ∀ i l, s.lease i = .held l → l.token = token → fieldsOk →
      let names := leaseIdBytes { slot := i, gen := l.gen } ++ num1 l.holder.val
      let counted := s.setAgent l.holder { s.agent l.holder with
        denials := if (s.agent l.holder).denials < 65535 then (s.agent l.holder).denials + 1 else 65535 }
      let inRange := l.range.base ≤ unit ∧ unit < l.range.base + l.range.count
      let modeOk := access = 0 ∨ l.mode = .exclusive
      (¬inRange → answers .deny ([1] ++ names) counted)
      ∧ (inRange → ¬modeOk → answers .deny ([2] ++ names) counted)
      ∧ (inRange → modeOk → answers .allow names s)

/-- CHECK_AGENT (R160, R161): bad fields are refused and count nothing; a DETACHED or FENCED agent is denied, an
ATTACHED one is allowed by its lowest-slot live lease that covers the unit with a mode that permits the access, and
denied where it has none; every DENY is counted to the agent named. -/
def Obligations.CheckAgentAnswers : Prop :=
  ∀ (s : State) (r : Request) (agent unit access : Nat),
    CheckAdmitted s .checkAgent r → r.body = num1 agent ++ num3 unit ++ num1 access →
    agent < 256 → unit < 16777216 → access < 256 →
    let answers := fun (o : ReplyOutcome) (body : List Byte) (t : State) =>
      exec .checkAgent s = .next (replied checkPort r o body (t.serve checkPort))
    (¬(agent ≤ 7 ∧ unit < 1048576 ∧ access ≤ 1) → answers .badField [] s)
    ∧ ∀ k : AgentNo, k.val = agent → unit < 1048576 → access ≤ 1 →
      let counted := s.setAgent k { s.agent k with
        denials := if (s.agent k).denials < 65535 then (s.agent k).denials + 1 else 65535 }
      let answering := fun i => ∃ l, s.lease i = .held l ∧ l.holder = k
        ∧ l.range.base ≤ unit ∧ unit < l.range.base + l.range.count ∧ (access = 0 ∨ l.mode = .exclusive)
      ((s.agent k).state = .detached → answers .deny [4] counted)
      ∧ ((s.agent k).state = .fenced → answers .deny [3] counted)
      ∧ ((s.agent k).state = .attached →
        (∀ i l, s.lease i = .held l → answering i → (∀ j < i, ¬answering j) →
          answers .allow (leaseIdBytes { slot := i, gen := l.gen } ++ tokenBytes l.token) s)
        ∧ ((∀ i, ¬answering i) → answers .deny [5] counted))

/-! ### The lease timer -/

/-- SET_TICK by an admin (R84, R85): the period is set, the interval restarts, pending ticks are discarded, and
the reply carries the period before. INTERVAL_EXPIRY (R82, R85): one tick is produced, or lost at 255, and the next
interval begins; with RST# asserted or the period 0 no interval runs. That the microsecond under way restarts too
is the model's choice (log entry 6). -/
def Obligations.SetTickAndIntervalExpiry : Prop :=
  (∀ (s : State) (k : AgentNo) (r : Request) (period : Nat),
    Admitted s k .setTick r → r.body = num2 period → period ≤ 65535 →
    exec (.setTick k) s = .next (replied (agentPort k) r .ok (num2 s.tickPeriod)
      { s with lastServed := agentPort k, tickPeriod := period, elapsed := 0, refPhase := 0, pendingTicks := 0 }))
  ∧ ∀ s : State,
    (s.rstAsserted = true ∨ s.tickPeriod = 0 → exec .intervalExpiry s = .next s)
    ∧ (s.rstAsserted = false → s.tickPeriod ≠ 0 → exec .intervalExpiry s = .next { s with
        elapsed := 0, refPhase := 0, pendingTicks := if s.pendingTicks < 255 then s.pendingTicks + 1 else 255 })

/-- TICK (R51, R82, R86): the engine takes one pending tick and runs the lease countdown, the wait countdown and
one re-examination; with none pending, the timer stopped or RST# asserted there is no tick action. -/
def Obligations.TickRunsThreeStages : Prop :=
  ∀ s : State,
    (s.rstAsserted = true ∨ s.tickPeriod = 0 ∨ s.pendingTicks = 0 → exec .tick s = .next s)
    ∧ (s.rstAsserted = false → s.tickPeriod ≠ 0 → s.pendingTicks ≠ 0 →
      exec .tick s = .next
        (reexamine (waitCountdown (leaseCountdown { s with pendingTicks := s.pendingTicks - 1 }))).1)

/-- The lease countdown visits slots 0 to 63 in order, each as the countdown so far has left it (R88). At a slot: FREE,
nothing happens; Remaining above 1, it is counted down, with a WARN at a LIVE lease's non-zero warn mark (R89); a LIVE
lease at 1 ends EXPIRED with its notice (R90); a RECALLED one at 1 ends REVOKED and its holder is fenced at once, in the
midst of the countdown (R91, R100). Where no RECALLED lease is at 1: every live lease is counted down or expires, the
notices of an agent come in slot order, and nothing but slots, counts and queues changes. -/
def Obligations.LeaseCountdownVisitsEverySlot : Prop :=
  (∀ s : State, leaseCountdown s = (List.finRange 64).foldl (fun t i => countdownSlot i t) s)
  ∧ (∀ (s : State) (i : LeaseIdx) m, s.lease i = .free m → countdownSlot i s = s)
  ∧ (∀ (s : State) (i : LeaseIdx) l, s.lease i = .held l →
    let id : LeaseId := { slot := i, gen := l.gen }
    let counted := s.setLease i (.held { l with remaining := l.remaining - 1 })
    let ended := fun cause =>
      (s.setLease i (.free (some { gen := l.gen, cause := cause, token := l.token, holder := l.holder }))).setAgent l.holder
        { s.agent l.holder with leaseCount := (s.agent l.holder).leaseCount - 1 }
    let warned := l.state = .live ∧ l.warn ≠ 0 ∧ l.remaining - 1 = l.warn
    (1 < l.remaining → warned →
      countdownSlot i s = counted.setNotice l.holder (storeNotice (.warn id l.warn) (s.notice l.holder)))
    ∧ (1 < l.remaining → ¬warned → countdownSlot i s = counted)
    ∧ (l.remaining ≤ 1 → l.state = .live →
      countdownSlot i s = (ended .expired).setNotice l.holder (storeNotice (.expired id l.tag) (s.notice l.holder)))
    ∧ (l.remaining ≤ 1 → l.state = .recalled → countdownSlot i s = fence l.holder (.graceLapse id) (ended .revoked)))
  ∧ ∀ s : State, (∀ i l, s.lease i = .held l → l.state = .recalled → 1 < l.remaining) →
    let t := leaseCountdown s
    let told := fun (k : AgentNo) (q : NoticeState) (i : LeaseIdx) =>
      match s.lease i with
      | .free _ => q
      | .held l =>
        if l.holder ≠ k then q
        else if l.remaining ≤ 1 then storeNotice (.expired { slot := i, gen := l.gen } l.tag) q
        else if l.state = .live ∧ l.warn ≠ 0 ∧ l.remaining - 1 = l.warn then
          storeNotice (.warn { slot := i, gen := l.gen } l.warn) q
        else q
    let expiring := fun k => (List.finRange 64).filter fun i =>
      match s.lease i with
      | .free _ => false
      | .held l => decide (l.holder = k ∧ l.remaining ≤ 1)
    (∀ i m, s.lease i = .free m → t.leases[i] = s.leases[i])
    ∧ (∀ (i : LeaseIdx) l, s.lease i = .held l → 1 < l.remaining →
      t.leases[i] = { s.leases[i] with content := .held { l with remaining := l.remaining - 1 } })
    ∧ (∀ (i : LeaseIdx) l, s.lease i = .held l → l.remaining ≤ 1 →
      t.leases[i] = { s.leases[i] with
        content := .free (some { gen := l.gen, cause := .expired, token := l.token, holder := l.holder }) })
    ∧ (∀ k, t.agent k = { s.agent k with leaseCount := (s.agent k).leaseCount - (expiring k).length }
      ∧ t.notice k = (List.finRange 64).foldl (told k) (s.notice k))
    ∧ t = { s with leases := t.leases, agents := t.agents, notices := t.notices }

/-- The wait countdown (R51, R52): every bounded waiter is counted down by one, one at 1 leaves LAPSED with its
memory, count and WAIT_LAPSED notice, in list order, and UNBOUNDED ones stay. Waiters stand in different slots. -/
def Obligations.WaitCountdownVisitsEveryWaiter : Prop :=
  ∀ s : State, WaitSlotsDistinct s →
    let t := waitCountdown s
    let lapses := fun w : Waiter => ∃ n, w.left = .bounded n ∧ n ≤ 1
    t.waiters = s.waiters.filterMap (fun w =>
      match w.left with
      | .unbounded => some w
      | .bounded n => if n ≤ 1 then none else some { w with left := .bounded (n - 1) })
    ∧ (∀ w ∈ s.waiters, lapses w →
      t.waitSlot w.id.slot = { s.waitSlot w.id.slot with memory := some { gen := w.id.gen, cause := .lapsed, agent := w.claim.agent } })
    ∧ (∀ i, (∀ w ∈ s.waiters, w.id.slot = i → ¬lapses w) → t.waitSlot i = s.waitSlot i)
    ∧ (∀ k,
      let gone := s.waiters.filter fun w => decide (w.claim.agent = k) &&
        (match w.left with
          | .unbounded => false
          | .bounded n => decide (n ≤ 1))
      t.agent k = { s.agent k with waitCount := (s.agent k).waitCount - gone.length }
      ∧ t.notice k = gone.foldl (fun q w => storeNotice (.waitLapsed w.id w.claim.tag) q) (s.notice k))
    ∧ t = { s with waiters := t.waiters, waitSlots := t.waitSlots, agents := t.agents, notices := t.notices }

/-- LEASE_EXPIRY, WAIT_LAPSE and GRACE_LAPSE, steps of a tick given as commands of their own (log entry 3): while the
timer runs, a LIVE lease at its last tick ends EXPIRED (R90), a bounded waiter at its last tick leaves LAPSED (R52),
each with its notice; a RECALLED lease at its last tick ends REVOKED without a notice, and its holder is fenced with
cause GRACE_LAPSE and the lease's id (R100); elsewhere nothing changes. While the tick period is 0, and while RST# is
asserted, nothing expires and nothing lapses (R51, R86, R97). -/
def Obligations.ExpiryAndLapsesEndOneRecord : Prop :=
  (∀ (s : State) (i : LeaseIdx) (j : WaitIdx), s.rstAsserted = true ∨ s.tickPeriod = 0 →
    exec (.leaseExpiry i) s = .next s ∧ exec (.waitLapse j) s = .next s ∧ exec (.graceLapse i) s = .next s)
  ∧ (∀ (s : State) (i : LeaseIdx),
    (∀ l, s.rstAsserted = false → s.tickPeriod ≠ 0 → s.lease i = .held l → l.state = .live → l.remaining ≤ 1 →
      exec (.leaseExpiry i) s = .next (((s.setLease i (.free (some
        { gen := l.gen, cause := .expired, token := l.token, holder := l.holder }))).setAgent l.holder
          { s.agent l.holder with leaseCount := (s.agent l.holder).leaseCount - 1 }).setNotice l.holder
          (storeNotice (.expired { slot := i, gen := l.gen } l.tag) (s.notice l.holder))))
    ∧ ((∀ l, s.lease i = .held l → l.state = .live → 1 < l.remaining) →
      exec (.leaseExpiry i) s = .next s))
  ∧ (∀ (s : State) (i : WaitIdx), WaitSlotsDistinct s →
    (∀ w ∈ s.waiters, ∀ n, s.rstAsserted = false → s.tickPeriod ≠ 0 → w.id.slot = i → w.left = .bounded n → n ≤ 1 →
      exec (.waitLapse i) s = .next { s with
        waiters := s.waiters.filter fun v => decide (v.id ≠ w.id)
        waitSlots := s.waitSlots.set i
          { s.waitSlot i with memory := some { gen := w.id.gen, cause := .lapsed, agent := w.claim.agent } }
        agents := s.agents.set w.claim.agent
          { s.agent w.claim.agent with waitCount := (s.agent w.claim.agent).waitCount - 1 }
        notices := s.notices.set w.claim.agent
          (storeNotice (.waitLapsed w.id w.claim.tag) (s.notice w.claim.agent)) })
    ∧ ((∀ w ∈ s.waiters, ∀ n, w.id.slot = i → w.left = .bounded n → 1 < n) →
      exec (.waitLapse i) s = .next s))
  ∧ ∀ (s : State) (i : LeaseIdx),
    (∀ l, s.rstAsserted = false → s.tickPeriod ≠ 0 → s.lease i = .held l → l.state = .recalled → l.remaining ≤ 1 →
      let ended := (s.setLease i (.free (some
        { gen := l.gen, cause := .revoked, token := l.token, holder := l.holder }))).setAgent l.holder
          { s.agent l.holder with leaseCount := (s.agent l.holder).leaseCount - 1 }
      exec (.graceLapse i) s = .next (fence l.holder (.graceLapse { slot := i, gen := l.gen }) ended))
    ∧ ((∀ l, s.lease i = .held l → l.state = .recalled → 1 < l.remaining) →
      exec (.graceLapse i) s = .next s)

/-! ### Re-examination -/

/-- A walk takes the waiters in list order (R47); one found grantable becomes a lease in the slot found, leaves
GRANTED and is told (R48); any other keeps its place, with blocked reason and blocker rewritten (R49). -/
def Obligations.WalkExaminesEachWaiter : Prop :=
  (∀ s : State, reexamine s = walk s.waiters s)
  ∧ (∀ s : State, walk [] s = (s, 0))
  ∧ ∀ (s : State) (w : Waiter) (ws : List Waiter),
    let verdict := grantVerdict s w.claim (s.waiters.takeWhile fun v => decide (v.id ≠ w.id))
    let k := w.claim.agent
    (∀ i, verdict = .grantable i →
      let gen := s.leases[i].nextGen
      let lease : Lease :=
        { gen := gen, holder := k, domain := w.claim.domain, range := w.claim.range, mode := w.claim.mode
          priority := w.claim.priority, token := s.tokenCounter, duration := w.claim.duration, remaining := w.claim.duration
          warn := w.claim.warn, tag := w.claim.tag, state := .live, renewals := 0, origin := none }
      let id : LeaseId := { slot := i, gen := gen }
      let placed := { s with
        leases := s.leases.set i { content := .held lease, nextGen := gen + 1 }
        agents := s.agents.set k { s.agent k with
          leaseCount := (s.agent k).leaseCount + 1, waitCount := (s.agent k).waitCount - 1 } }
      let granted := { placed with
        tokenCounter := advanceToken (tokenHeld placed) 64 s.tokenCounter
        waiters := s.waiters.filter fun v => decide (v.id ≠ w.id)
        waitSlots := s.waitSlots.set w.id.slot
          { s.waitSlot w.id.slot with memory := some { gen := w.id.gen, cause := .granted id, agent := k } }
        notices := s.notices.set k
          (storeNotice (.granted w.id id s.tokenCounter w.claim.mode w.claim.range w.claim.tag) (s.notice k)) }
      walk (w :: ws) s = ((walk ws granted).1, 1 + (walk ws granted).2))
    ∧ ∀ why, verdict = .blocked why →
      let kept := { s with waiters := s.waiters.map fun v => if v.id = w.id then { v with blocked := why } else v }
      walk (w :: ws) s = walk ws kept

/-- What a re-examination leaves alone: live leases, and every field but those DiffersByWalk names; the number it
reports is the number of waiters that left. Waiters stand in different wait slots. -/
def Obligations.ReexaminationFrame : Prop :=
  ∀ s : State, WaitSlotsDistinct s →
    DiffersByWalk s (reexamine s).1 ∧ (reexamine s).2 + (reexamine s).1.waiters.length = s.waiters.length

/-- One walk restores the eighth law (R50): after a re-examination no waiter meets all four grant
conditions, from any state whose waiters stand in different wait slots. -/
def Obligations.OneWalkRestoresTheEighthLaw : Prop :=
  ∀ s : State, WaitSlotsDistinct s → EighthLaw (reexamine s).1

/-! ### The laws of the device, kept by every step -/

/-- Device reset meets the first law and the third to the eleventh, the relations of the domain records, and the
waiters in different wait slots, of which the second law's 24 waiters follow (R39). The second law's 64 leases and the
twelfth law hold of every State by its shape. -/
def Obligations.ResetMeetsEveryLaw : Prop :=
  FirstLaw State.reset ∧ WaitSlotsDistinct State.reset ∧ ThirdLaw State.reset ∧ FourthLaw State.reset
    ∧ FifthLaw State.reset ∧ SixthLaw State.reset ∧ SeventhLaw State.reset ∧ DomainRecordsSound State.reset
    ∧ EighthLaw State.reset ∧ NinthLaw State.reset ∧ TenthLaw State.reset ∧ EleventhLaw State.reset

/-- The first law (R9): overlapping live leases are both SHARED. -/
def Obligations.EveryStepKeepsTheFirstLaw : Prop :=
  ∀ s t : State, FirstLaw s → step s = .next t → FirstLaw t

/-- The fourth law (R13), with the token counter held by no live lease (R12). -/
def Obligations.EveryStepKeepsTheFourthLaw : Prop :=
  ∀ s t : State, FourthLaw s → step s = .next t → FourthLaw t

/-- The third and sixth laws (R113, R114): the counts equal the records and stay within the limits, and an agent
that is not ATTACHED holds nothing; with them, waiters stand in different wait slots (R39). -/
def Obligations.EveryStepKeepsTheThirdAndSixthLaws : Prop :=
  ∀ s t : State, WaitSlotsDistinct s → ThirdLaw s → SixthLaw s → step s = .next t →
    WaitSlotsDistinct t ∧ ThirdLaw t ∧ SixthLaw t

/-- The fifth law (R128): every live lease and waiter lies in its domain, which is in its agent's mask. -/
def Obligations.EveryStepKeepsTheFifthLaw : Prop :=
  ∀ s t : State, FifthLaw s → step s = .next t → FifthLaw t

/-- The seventh law (R92) and the relations of the domain records (R126). -/
def Obligations.EveryStepKeepsTheSeventhLaw : Prop :=
  ∀ s t : State, FifthLaw s → SeventhLaw s → DomainRecordsSound s → step s = .next t →
    SeventhLaw t ∧ DomainRecordsSound t

/-- Tier 3. The eighth law (R50): every step but LEASE_EXPIRY, GRACE_LAPSE and WAIT_LAPSE, which are the insides of
a tick (log entry 3), leaves no waiter grantable. The premises are laws that every step keeps. -/
def Obligations.EveryWholeActionKeepsTheEighthLaw : Prop :=
  ∀ s t : State, WaitSlotsDistinct s → ClassesInOrder s → EighthLaw s → step s = .next t →
    (∀ c rest, s.pending = c :: rest →
      (∀ i, c ≠ .leaseExpiry i) ∧ (∀ i, c ≠ .graceLapse i) ∧ (∀ i, c ≠ .waitLapse i)) →
    EighthLaw t

/-- The ninth law (R44): the order of the classes, and with it the order of arrivals within a class, for as long as fewer
than 4,294,967,295 waiters have been queued from the oldest that waits (R42 counts them modulo 4,294,967,296). The tenth
law (R140) as far as one state shows it: the length of a queue, and its numbers, which skip no more than the lost count
counts (how a post is numbered is PostingNumbersStoresOrDrops). The eleventh law (R131): the order of the bounds. -/
def Obligations.EveryStepKeepsTheNinthToEleventhLaws : Prop :=
  ∀ s t : State, step s = .next t →
    (ClassesInOrder s → ClassesInOrder t)
    ∧ (NinthLaw s → (∀ w ∈ s.waiters, age s w < 4294967295) → NinthLaw t)
    ∧ (TenthLaw s → TenthLaw t) ∧ (EleventhLaw s → EleventhLaw t)
end

