-- ==== Sys2Proof/Laws/Fields.lean ====
section
/-! SUPPORT. Fields read back from the bytes that carry them (R162, R174), and the shape of link bits. -/

namespace Sys2Proof.Machine

theorem num1_eq (n : Nat) : num1 n = [BitVec.ofNat 8 n] := rfl

theorem natOfBytes_num1 (n : Nat) (h : n < 256) : natOfBytes (num1 n) = n := by
  simp [natOfBytes, num1]; omega

theorem natOfBytes_num2 (n : Nat) (h : n < 65536) : natOfBytes (num2 n) = n := by
  simp [natOfBytes, num2]; omega

theorem natOfBytes_num3 (n : Nat) (h : n < 16777216) : natOfBytes (num3 n) = n := by
  simp [natOfBytes, num3, num2]; omega

theorem natOfBytes_num4 (n : Nat) (h : n < 4294967296) : natOfBytes (num4 n) = n := by
  simp [natOfBytes, num4, num3, num2]; omega

theorem natOfBytes_num5 (n : Nat) (h : n < 1099511627776) : natOfBytes (num5 n) = n := by
  simp [natOfBytes, num5, num4, num3, num2]; omega

theorem leaseIdNat_lt (id : LeaseId) : leaseIdNat id < 65536 := by
  have h1 := id.slot.isLt
  have h2 := id.gen.isLt
  unfold leaseIdNat; omega

theorem leaseIdOf_leaseIdNat (id : LeaseId) : leaseIdOf (leaseIdNat id) = id := by
  obtain ⟨⟨slot, h1⟩, gen⟩ := id
  have h2 := gen.isLt
  have h3 : (slot * 1024 + gen.toNat) / 1024 = slot := by omega
  have h4 : BitVec.ofNat 10 (slot * 1024 + gen.toNat) = gen := by
    apply BitVec.eq_of_toNat_eq; simp; omega
  simp [leaseIdOf, leaseIdNat, h3, h4, Fin.ofNat, Nat.mod_eq_of_lt h1]

theorem leaseIdOf_leaseIdBytes (id : LeaseId) : leaseIdOf (natOfBytes (leaseIdBytes id)) = id := by
  rw [leaseIdBytes, natOfBytes_num2 _ (leaseIdNat_lt id), leaseIdOf_leaseIdNat]

theorem waitIdNat_lt (id : WaitId) : waitIdNat id < 65536 := by
  have h1 := id.slot.isLt
  have h2 := id.gen.isLt
  unfold waitIdNat; omega

theorem waitIdOf_waitIdNat (id : WaitId) : waitIdOf (waitIdNat id) = some id := by
  obtain ⟨⟨slot, h1⟩, gen⟩ := id
  have h2 := gen.isLt
  have h3 : (slot * 1024 + gen.toNat) / 1024 = slot := by omega
  have h4 : BitVec.ofNat 10 (slot * 1024 + gen.toNat) = gen := by
    apply BitVec.eq_of_toNat_eq; simp; omega
  simp [waitIdOf, waitIdNat, h3, h4, h1]

theorem waitIdOf_waitIdBytes (id : WaitId) : waitIdOf (natOfBytes (waitIdBytes id)) = some id := by
  rw [waitIdBytes, natOfBytes_num2 _ (waitIdNat_lt id), waitIdOf_waitIdNat]

theorem rangeOf_rangeBytes (r : Range) (h1 : r.base < unitSpace) (h2 : r.count < unitSpace) :
    rangeOf (rangeBytes r) = r := by
  unfold unitSpace at h1 h2
  have h3 : r.base * unitSpace + r.count < 1099511627776 := by unfold unitSpace; omega
  have h4 : (r.base * unitSpace + r.count) / unitSpace = r.base := by unfold unitSpace; omega
  have h5 : (r.base * unitSpace + r.count) % unitSpace = r.count := by unfold unitSpace; omega
  simp [rangeOf, rangeBytes, natOfBytes_num5 _ h3, h4, h5]

theorem rangeBytes_shape (r : Range) : ∃ b4 b3 b2 b1 b0, rangeBytes r = [b4, b3, b2, b1, b0] :=
  ⟨_, _, _, _, _, rfl⟩

theorem tokenOf_tokenBytes (t : Token) : BitVec.ofNat 32 (natOfBytes (tokenBytes t)) = t := by
  rw [tokenBytes, natOfBytes_num4 _ t.isLt]; simp

theorem yesNoOf_yesNo (b : Bool) : yesNoOf (if b then (1 : Byte) else 0) = some b := by
  cases b <;> rfl

theorem agentOf_num1 (k : AgentNo) : agentOf (BitVec.ofNat 8 k.val) = some k := by
  revert k; decide

theorem domainOfByte_num1 (d : DomainNo) : domainOfByte (BitVec.ofNat 8 d.val) = some d := by
  revert d; decide

/-- A code above 1 names no value of a two-valued field (R21, R124, R130). -/
theorem twoCodes_none {b : Byte} (h : 1 < b.toNat) : modeOf b = none ∧ priorityOf b = none ∧ yesNoOf b = none := by
  have h0 : b ≠ 0 := by rintro rfl; simp at h
  have h1 : b ≠ 1 := by rintro rfl; simp at h
  simp only [modeOf, priorityOf, yesNoOf, if_neg h0, if_neg h1, and_self]

/-! ### Link bits -/

theorem linkBits_nil : linkBits [] = [] := rfl

theorem linkBits_cons (b : Byte) (bytes : List Byte) : linkBits (b :: bytes) = bitsOfByte b ++ linkBits bytes := rfl

theorem linkBits_length : ∀ bytes : List Byte, (linkBits bytes).length = 8 * bytes.length
  | [] => rfl
  | b :: bytes => by
    have h : (bitsOfByte b).length = 8 := rfl
    simp [linkBits_cons, h, linkBits_length bytes]; omega

theorem byteOfBits_bitsOfByte (b : Byte) :
    byteOfBits (b.getLsbD 7) (b.getLsbD 6) (b.getLsbD 5) (b.getLsbD 4) (b.getLsbD 3) (b.getLsbD 2) (b.getLsbD 1)
      (b.getLsbD 0) = b := by
  revert b; decide +kernel

/-- Bytes read back from their bits, whatever bits short of a byte follow (R162). -/
theorem wholeBytes_linkBits : ∀ (bytes : List Byte) (extra : List Bool), extra.length < 8 →
    wholeBytes (linkBits bytes ++ extra) = bytes
  | [], extra, h => by
    match extra, h with
    | [], _ => rfl
    | [_], _ => rfl
    | [_, _], _ => rfl
    | [_, _, _], _ => rfl
    | [_, _, _, _], _ => rfl
    | [_, _, _, _, _], _ => rfl
    | [_, _, _, _, _, _], _ => rfl
    | [_, _, _, _, _, _, _], _ => rfl
    | _ :: _ :: _ :: _ :: _ :: _ :: _ :: _ :: _, h => simp at h; omega
  | b :: bytes, extra, h => by
    simp only [linkBits_cons, bitsOfByte, List.cons_append, List.nil_append, wholeBytes, byteOfBits_bitsOfByte,
      wholeBytes_linkBits bytes extra h]

/-- With no payload a port shifts the status byte, then zeros (R164, R166). -/
theorem shiftOut_nil (status : Byte) (n : Nat) :
    shiftOut status [] (8 + n) = linkBits [status] ++ List.replicate n false := by
  simp only [shiftOut]
  rw [List.take_append, List.take_of_length_le (by simp [linkBits_length])]
  simp [linkBits_length]

/-- R166's judgment by the positions of the bytes received. -/
theorem judgeFrame_spec (bytes : List Byte) :
    judgeFrame bytes =
      let len := (bytes.getD 4 0).toNat
      if bytes.length < 6 ∨ bytes.length < 6 + len then .runt
      else if 32 < len ∨ 6 + len < bytes.length then .long
      else if bytes.getD (5 + len) 0 ≠ crc8 (bytes.take (5 + len)) then .crc
      else .good { kind := bytes.getD 0 0, seqTag := bytes.getD 1 0, epoch := bytes.getD 2 0 ++ bytes.getD 3 0
                   body := (bytes.drop 5).take len } := by
  match bytes with
  | [] => rfl
  | [_] => rfl
  | [_, _] => rfl
  | [_, _, _] => rfl
  | [_, _, _, _] => rfl
  | a :: b :: c :: d :: e :: rest =>
    simp only [judgeFrame]
    have h4 : (a :: b :: c :: d :: e :: rest).getD 4 0 = e := rfl
    simp only [h4]
    by_cases h1 : rest.length < e.toNat + 1
    · have : (a :: b :: c :: d :: e :: rest).length < 6 ∨ (a :: b :: c :: d :: e :: rest).length < 6 + e.toNat := by simp; omega
      simp only [h1, this, if_true]
    · have : ¬((a :: b :: c :: d :: e :: rest).length < 6 ∨ (a :: b :: c :: d :: e :: rest).length < 6 + e.toNat) := by simp; omega
      simp only [h1, this, if_false]
      by_cases h2 : 32 < e.toNat ∨ e.toNat + 1 < rest.length
      · have : 32 < e.toNat ∨ 6 + e.toNat < (a :: b :: c :: d :: e :: rest).length := by simp; omega
        simp only [h2, this, if_true]
      · have : ¬(32 < e.toNat ∨ 6 + e.toNat < (a :: b :: c :: d :: e :: rest).length) := by simp; omega
        simp only [h2, this, if_false]
        have hl : rest.length = e.toNat + 1 := by omega
        have hd : rest.drop e.toNat = [rest.getD e.toNat 0] := by
          rw [List.drop_eq_getElem_cons (by omega), List.drop_eq_nil_of_le (by omega)]
          simp [List.getD_eq_getElem?_getD, hl]
        have h5 : (a :: b :: c :: d :: e :: rest).getD (5 + e.toNat) 0 = rest.getD e.toNat 0 := by
          rw [Nat.add_comm]; rfl
        have h6 : (a :: b :: c :: d :: e :: rest).take (5 + e.toNat) = [a, b, c, d, e] ++ rest.take e.toNat := by
          rw [Nat.add_comm]; rfl
        rw [hd, h5, h6]
        simp

/-! ### The transaction kind (R164) -/

theorem wholeBytes_byte (b : Byte) (bits : List Bool) : wholeBytes (linkBits [b] ++ bits) = b :: wholeBytes bits := by
  simp only [linkBits_cons, linkBits_nil, bitsOfByte, List.cons_append, List.nil_append, wholeBytes, byteOfBits_bitsOfByte]

theorem wholeBytes_short {bits : List Bool} (h : bits.length < 8) : wholeBytes bits = [] :=
  wholeBytes_linkBits [] bits h

theorem afterKind_byte (b : Byte) (bits : List Bool) : afterKind (linkBits [b] ++ bits) = bits := rfl

theorem transactionKind_send (bits : List Bool) : transactionKind (linkBits [0x53] ++ bits) = some .send := by
  rw [transactionKind, wholeBytes_byte]; rfl

theorem transactionKind_collect (bits : List Bool) : transactionKind (linkBits [0x43] ++ bits) = some .collect := by
  rw [transactionKind, wholeBytes_byte]; rfl

theorem transactionKind_portReset (bits : List Bool) : transactionKind (linkBits [0x52] ++ bits) = some .portReset := by
  rw [transactionKind, wholeBytes_byte]; rfl

/-- A transaction whose first byte is any other, or is incomplete, is of no kind. -/
theorem transactionKind_none {bits : List Bool}
    (h : bits.length < 8 ∨ ∃ b rest, bits = linkBits [b] ++ rest ∧ b ∉ [(0x53 : Byte), 0x43, 0x52]) :
    transactionKind bits = none := by
  rcases h with h | ⟨b, rest, rfl, h⟩
  · rw [transactionKind, wholeBytes_short h]
  · rw [transactionKind, wholeBytes_byte]
    simp only [List.mem_cons, List.not_mem_nil, or_false, not_or] at h
    simp [TransactionKind.code, eq_comm (b := b)]
    exact h

/-- The rising edge of an open transaction of the command's own kind acts on the port with its link closed. -/
theorem transact_closes {s : State} {p : PortNo} {o : Opened} {kind : Option TransactionKind} {bits : List Bool}
    (act : List Bool → Opened → State → State) (low : (s.port p).selLow = true) (opened : (s.port p).opened = some o)
    (own : transactionKind bits = kind) :
    transact p kind act (.closes bits) s = act bits o (s.setPort p { s.port p with selLow := false, opened := none }) := by
  simp [transact, selRises, low, opened, own]

/-- A rising edge that ends no open transaction, or one of another kind, changes the level of SEL# alone. -/
theorem transact_closes_idle {s : State} {p : PortNo} {kind : Option TransactionKind} {bits : List Bool}
    (act : List Bool → Opened → State → State) (low : (s.port p).selLow = true)
    (h : (s.port p).opened = none ∨ transactionKind bits ≠ kind) :
    transact p kind act (.closes bits) s = s.setPort p { s.port p with selLow := false, opened := none } := by
  rcases h with h | h
  · simp [transact, selRises, low, h]
  · cases h2 : (s.port p).opened <;> simp [transact, selRises, low, h2, h]

/-! ### A port's slots -/

theorem portAgent_agentPort (k : AgentNo) : portAgent (agentPort k) = some k := by
  simp [portAgent, agentPort]

theorem portAgent_checkPort : portAgent checkPort = none := rfl

end Sys2Proof.Machine
end

