-- ==== Sys2Proof/Laws/State.lean ====
section
/-! SUPPORT. What each record update of Ops.lean changes, field by field and reader by reader: the record written reads
back, and every other field and record is as it was. -/

namespace Sys2Proof.Machine

namespace State

/-! ### setLease -/

@[simp] theorem setLease_rstAsserted (s : State) (i : LeaseIdx) (v : SlotContent) : (s.setLease i v).rstAsserted = s.rstAsserted := rfl
@[simp] theorem setLease_clksel (s : State) (i : LeaseIdx) (v : SlotContent) : (s.setLease i v).clksel = s.clksel := rfl
@[simp] theorem setLease_refPhase (s : State) (i : LeaseIdx) (v : SlotContent) : (s.setLease i v).refPhase = s.refPhase := rfl
@[simp] theorem setLease_tickPeriod (s : State) (i : LeaseIdx) (v : SlotContent) : (s.setLease i v).tickPeriod = s.tickPeriod := rfl
@[simp] theorem setLease_elapsed (s : State) (i : LeaseIdx) (v : SlotContent) : (s.setLease i v).elapsed = s.elapsed := rfl
@[simp] theorem setLease_pendingTicks (s : State) (i : LeaseIdx) (v : SlotContent) : (s.setLease i v).pendingTicks = s.pendingTicks := rfl
@[simp] theorem setLease_tokenCounter (s : State) (i : LeaseIdx) (v : SlotContent) : (s.setLease i v).tokenCounter = s.tokenCounter := rfl
@[simp] theorem setLease_waiters (s : State) (i : LeaseIdx) (v : SlotContent) : (s.setLease i v).waiters = s.waiters := rfl
@[simp] theorem setLease_waitSlots (s : State) (i : LeaseIdx) (v : SlotContent) : (s.setLease i v).waitSlots = s.waitSlots := rfl
@[simp] theorem setLease_arrivals (s : State) (i : LeaseIdx) (v : SlotContent) : (s.setLease i v).arrivals = s.arrivals := rfl
@[simp] theorem setLease_agents (s : State) (i : LeaseIdx) (v : SlotContent) : (s.setLease i v).agents = s.agents := rfl
@[simp] theorem setLease_access (s : State) (i : LeaseIdx) (v : SlotContent) : (s.setLease i v).access = s.access := rfl
@[simp] theorem setLease_domains (s : State) (i : LeaseIdx) (v : SlotContent) : (s.setLease i v).domains = s.domains := rfl
@[simp] theorem setLease_notices (s : State) (i : LeaseIdx) (v : SlotContent) : (s.setLease i v).notices = s.notices := rfl
@[simp] theorem setLease_ports (s : State) (i : LeaseIdx) (v : SlotContent) : (s.setLease i v).ports = s.ports := rfl
@[simp] theorem setLease_cursors (s : State) (i : LeaseIdx) (v : SlotContent) : (s.setLease i v).cursors = s.cursors := rfl
@[simp] theorem setLease_lastServed (s : State) (i : LeaseIdx) (v : SlotContent) : (s.setLease i v).lastServed = s.lastServed := rfl
@[simp] theorem setLease_checkDenials (s : State) (i : LeaseIdx) (v : SlotContent) : (s.setLease i v).checkDenials = s.checkDenials := rfl
@[simp] theorem setLease_draws (s : State) (i : LeaseIdx) (v : SlotContent) : (s.setLease i v).draws = s.draws := rfl
@[simp] theorem setLease_pending (s : State) (i : LeaseIdx) (v : SlotContent) : (s.setLease i v).pending = s.pending := rfl
@[simp] theorem setLease_agent (s : State) (i : LeaseIdx) (v : SlotContent) (j : AgentNo) : (s.setLease i v).agent j = s.agent j := rfl
@[simp] theorem setLease_accessOf (s : State) (i : LeaseIdx) (v : SlotContent) (j : AgentNo) : (s.setLease i v).accessOf j = s.accessOf j := rfl
@[simp] theorem setLease_domain (s : State) (i : LeaseIdx) (v : SlotContent) (j : DomainNo) : (s.setLease i v).domain j = s.domain j := rfl
@[simp] theorem setLease_notice (s : State) (i : LeaseIdx) (v : SlotContent) (j : AgentNo) : (s.setLease i v).notice j = s.notice j := rfl
@[simp] theorem setLease_port (s : State) (i : LeaseIdx) (v : SlotContent) (j : PortNo) : (s.setLease i v).port j = s.port j := rfl
@[simp] theorem setLease_cursor (s : State) (i : LeaseIdx) (v : SlotContent) (j : AgentNo) : (s.setLease i v).cursor j = s.cursor j := rfl
@[simp] theorem setLease_waitSlot (s : State) (i : LeaseIdx) (v : SlotContent) (j : WaitIdx) : (s.setLease i v).waitSlot j = s.waitSlot j := rfl
@[simp] theorem setLease_lease_self (s : State) (i : LeaseIdx) (v : SlotContent) : (s.setLease i v).lease i = v := by simp [setLease, lease]
theorem setLease_lease_ne (s : State) (i : LeaseIdx) (v : SlotContent) (j : LeaseIdx) (h : j ≠ i) : (s.setLease i v).lease j = s.lease j := by
  have h2 : i.val ≠ j.val := fun e => h (Fin.ext e.symm)
  simp [setLease, lease, h2]
theorem setLease_lease (s : State) (i : LeaseIdx) (v : SlotContent) (j : LeaseIdx) : (s.setLease i v).lease j = if j = i then v else s.lease j := by
  by_cases h : j = i
  · subst h; simp
  · simp [h, setLease_lease_ne]
@[simp] theorem setLease_nextGen (s : State) (i : LeaseIdx) (v : SlotContent) (j : LeaseIdx) : (s.setLease i v).leases[j].nextGen = s.leases[j].nextGen := by
  by_cases h : i.val = j.val
  · have h2 : i = j := Fin.ext h
    subst h2; simp [setLease]
  · simp [setLease, h]

/-! ### setAgent -/

@[simp] theorem setAgent_rstAsserted (s : State) (i : AgentNo) (v : AgentRecord) : (s.setAgent i v).rstAsserted = s.rstAsserted := rfl
@[simp] theorem setAgent_clksel (s : State) (i : AgentNo) (v : AgentRecord) : (s.setAgent i v).clksel = s.clksel := rfl
@[simp] theorem setAgent_refPhase (s : State) (i : AgentNo) (v : AgentRecord) : (s.setAgent i v).refPhase = s.refPhase := rfl
@[simp] theorem setAgent_tickPeriod (s : State) (i : AgentNo) (v : AgentRecord) : (s.setAgent i v).tickPeriod = s.tickPeriod := rfl
@[simp] theorem setAgent_elapsed (s : State) (i : AgentNo) (v : AgentRecord) : (s.setAgent i v).elapsed = s.elapsed := rfl
@[simp] theorem setAgent_pendingTicks (s : State) (i : AgentNo) (v : AgentRecord) : (s.setAgent i v).pendingTicks = s.pendingTicks := rfl
@[simp] theorem setAgent_leases (s : State) (i : AgentNo) (v : AgentRecord) : (s.setAgent i v).leases = s.leases := rfl
@[simp] theorem setAgent_tokenCounter (s : State) (i : AgentNo) (v : AgentRecord) : (s.setAgent i v).tokenCounter = s.tokenCounter := rfl
@[simp] theorem setAgent_waiters (s : State) (i : AgentNo) (v : AgentRecord) : (s.setAgent i v).waiters = s.waiters := rfl
@[simp] theorem setAgent_waitSlots (s : State) (i : AgentNo) (v : AgentRecord) : (s.setAgent i v).waitSlots = s.waitSlots := rfl
@[simp] theorem setAgent_arrivals (s : State) (i : AgentNo) (v : AgentRecord) : (s.setAgent i v).arrivals = s.arrivals := rfl
@[simp] theorem setAgent_access (s : State) (i : AgentNo) (v : AgentRecord) : (s.setAgent i v).access = s.access := rfl
@[simp] theorem setAgent_domains (s : State) (i : AgentNo) (v : AgentRecord) : (s.setAgent i v).domains = s.domains := rfl
@[simp] theorem setAgent_notices (s : State) (i : AgentNo) (v : AgentRecord) : (s.setAgent i v).notices = s.notices := rfl
@[simp] theorem setAgent_ports (s : State) (i : AgentNo) (v : AgentRecord) : (s.setAgent i v).ports = s.ports := rfl
@[simp] theorem setAgent_cursors (s : State) (i : AgentNo) (v : AgentRecord) : (s.setAgent i v).cursors = s.cursors := rfl
@[simp] theorem setAgent_lastServed (s : State) (i : AgentNo) (v : AgentRecord) : (s.setAgent i v).lastServed = s.lastServed := rfl
@[simp] theorem setAgent_checkDenials (s : State) (i : AgentNo) (v : AgentRecord) : (s.setAgent i v).checkDenials = s.checkDenials := rfl
@[simp] theorem setAgent_draws (s : State) (i : AgentNo) (v : AgentRecord) : (s.setAgent i v).draws = s.draws := rfl
@[simp] theorem setAgent_pending (s : State) (i : AgentNo) (v : AgentRecord) : (s.setAgent i v).pending = s.pending := rfl
@[simp] theorem setAgent_lease (s : State) (i : AgentNo) (v : AgentRecord) (j : LeaseIdx) : (s.setAgent i v).lease j = s.lease j := rfl
@[simp] theorem setAgent_accessOf (s : State) (i : AgentNo) (v : AgentRecord) (j : AgentNo) : (s.setAgent i v).accessOf j = s.accessOf j := rfl
@[simp] theorem setAgent_domain (s : State) (i : AgentNo) (v : AgentRecord) (j : DomainNo) : (s.setAgent i v).domain j = s.domain j := rfl
@[simp] theorem setAgent_notice (s : State) (i : AgentNo) (v : AgentRecord) (j : AgentNo) : (s.setAgent i v).notice j = s.notice j := rfl
@[simp] theorem setAgent_port (s : State) (i : AgentNo) (v : AgentRecord) (j : PortNo) : (s.setAgent i v).port j = s.port j := rfl
@[simp] theorem setAgent_cursor (s : State) (i : AgentNo) (v : AgentRecord) (j : AgentNo) : (s.setAgent i v).cursor j = s.cursor j := rfl
@[simp] theorem setAgent_waitSlot (s : State) (i : AgentNo) (v : AgentRecord) (j : WaitIdx) : (s.setAgent i v).waitSlot j = s.waitSlot j := rfl
@[simp] theorem setAgent_agent_self (s : State) (i : AgentNo) (v : AgentRecord) : (s.setAgent i v).agent i = v := by simp [setAgent, agent]
theorem setAgent_agent_ne (s : State) (i : AgentNo) (v : AgentRecord) (j : AgentNo) (h : j ≠ i) : (s.setAgent i v).agent j = s.agent j := by
  have h2 : i.val ≠ j.val := fun e => h (Fin.ext e.symm)
  simp [setAgent, agent, h2]
theorem setAgent_agent (s : State) (i : AgentNo) (v : AgentRecord) (j : AgentNo) : (s.setAgent i v).agent j = if j = i then v else s.agent j := by
  by_cases h : j = i
  · subst h; simp
  · simp [h, setAgent_agent_ne]
theorem setAgent_setAgent (s : State) (i : AgentNo) (v : AgentRecord) (v2 : AgentRecord) : (s.setAgent i v).setAgent i v2 = s.setAgent i v2 := by simp [setAgent]

/-! ### setAccessOf -/

@[simp] theorem setAccessOf_rstAsserted (s : State) (i : AgentNo) (v : AccessRecord) : (s.setAccessOf i v).rstAsserted = s.rstAsserted := rfl
@[simp] theorem setAccessOf_clksel (s : State) (i : AgentNo) (v : AccessRecord) : (s.setAccessOf i v).clksel = s.clksel := rfl
@[simp] theorem setAccessOf_refPhase (s : State) (i : AgentNo) (v : AccessRecord) : (s.setAccessOf i v).refPhase = s.refPhase := rfl
@[simp] theorem setAccessOf_tickPeriod (s : State) (i : AgentNo) (v : AccessRecord) : (s.setAccessOf i v).tickPeriod = s.tickPeriod := rfl
@[simp] theorem setAccessOf_elapsed (s : State) (i : AgentNo) (v : AccessRecord) : (s.setAccessOf i v).elapsed = s.elapsed := rfl
@[simp] theorem setAccessOf_pendingTicks (s : State) (i : AgentNo) (v : AccessRecord) : (s.setAccessOf i v).pendingTicks = s.pendingTicks := rfl
@[simp] theorem setAccessOf_leases (s : State) (i : AgentNo) (v : AccessRecord) : (s.setAccessOf i v).leases = s.leases := rfl
@[simp] theorem setAccessOf_tokenCounter (s : State) (i : AgentNo) (v : AccessRecord) : (s.setAccessOf i v).tokenCounter = s.tokenCounter := rfl
@[simp] theorem setAccessOf_waiters (s : State) (i : AgentNo) (v : AccessRecord) : (s.setAccessOf i v).waiters = s.waiters := rfl
@[simp] theorem setAccessOf_waitSlots (s : State) (i : AgentNo) (v : AccessRecord) : (s.setAccessOf i v).waitSlots = s.waitSlots := rfl
@[simp] theorem setAccessOf_arrivals (s : State) (i : AgentNo) (v : AccessRecord) : (s.setAccessOf i v).arrivals = s.arrivals := rfl
@[simp] theorem setAccessOf_agents (s : State) (i : AgentNo) (v : AccessRecord) : (s.setAccessOf i v).agents = s.agents := rfl
@[simp] theorem setAccessOf_domains (s : State) (i : AgentNo) (v : AccessRecord) : (s.setAccessOf i v).domains = s.domains := rfl
@[simp] theorem setAccessOf_notices (s : State) (i : AgentNo) (v : AccessRecord) : (s.setAccessOf i v).notices = s.notices := rfl
@[simp] theorem setAccessOf_ports (s : State) (i : AgentNo) (v : AccessRecord) : (s.setAccessOf i v).ports = s.ports := rfl
@[simp] theorem setAccessOf_cursors (s : State) (i : AgentNo) (v : AccessRecord) : (s.setAccessOf i v).cursors = s.cursors := rfl
@[simp] theorem setAccessOf_lastServed (s : State) (i : AgentNo) (v : AccessRecord) : (s.setAccessOf i v).lastServed = s.lastServed := rfl
@[simp] theorem setAccessOf_checkDenials (s : State) (i : AgentNo) (v : AccessRecord) : (s.setAccessOf i v).checkDenials = s.checkDenials := rfl
@[simp] theorem setAccessOf_draws (s : State) (i : AgentNo) (v : AccessRecord) : (s.setAccessOf i v).draws = s.draws := rfl
@[simp] theorem setAccessOf_pending (s : State) (i : AgentNo) (v : AccessRecord) : (s.setAccessOf i v).pending = s.pending := rfl
@[simp] theorem setAccessOf_lease (s : State) (i : AgentNo) (v : AccessRecord) (j : LeaseIdx) : (s.setAccessOf i v).lease j = s.lease j := rfl
@[simp] theorem setAccessOf_agent (s : State) (i : AgentNo) (v : AccessRecord) (j : AgentNo) : (s.setAccessOf i v).agent j = s.agent j := rfl
@[simp] theorem setAccessOf_domain (s : State) (i : AgentNo) (v : AccessRecord) (j : DomainNo) : (s.setAccessOf i v).domain j = s.domain j := rfl
@[simp] theorem setAccessOf_notice (s : State) (i : AgentNo) (v : AccessRecord) (j : AgentNo) : (s.setAccessOf i v).notice j = s.notice j := rfl
@[simp] theorem setAccessOf_port (s : State) (i : AgentNo) (v : AccessRecord) (j : PortNo) : (s.setAccessOf i v).port j = s.port j := rfl
@[simp] theorem setAccessOf_cursor (s : State) (i : AgentNo) (v : AccessRecord) (j : AgentNo) : (s.setAccessOf i v).cursor j = s.cursor j := rfl
@[simp] theorem setAccessOf_waitSlot (s : State) (i : AgentNo) (v : AccessRecord) (j : WaitIdx) : (s.setAccessOf i v).waitSlot j = s.waitSlot j := rfl
@[simp] theorem setAccessOf_accessOf_self (s : State) (i : AgentNo) (v : AccessRecord) : (s.setAccessOf i v).accessOf i = v := by simp [setAccessOf, accessOf]
theorem setAccessOf_accessOf_ne (s : State) (i : AgentNo) (v : AccessRecord) (j : AgentNo) (h : j ≠ i) : (s.setAccessOf i v).accessOf j = s.accessOf j := by
  have h2 : i.val ≠ j.val := fun e => h (Fin.ext e.symm)
  simp [setAccessOf, accessOf, h2]
theorem setAccessOf_accessOf (s : State) (i : AgentNo) (v : AccessRecord) (j : AgentNo) : (s.setAccessOf i v).accessOf j = if j = i then v else s.accessOf j := by
  by_cases h : j = i
  · subst h; simp
  · simp [h, setAccessOf_accessOf_ne]
theorem setAccessOf_setAccessOf (s : State) (i : AgentNo) (v : AccessRecord) (v2 : AccessRecord) : (s.setAccessOf i v).setAccessOf i v2 = s.setAccessOf i v2 := by simp [setAccessOf]

/-! ### setDomain -/

@[simp] theorem setDomain_rstAsserted (s : State) (i : DomainNo) (v : DomainRecord) : (s.setDomain i v).rstAsserted = s.rstAsserted := rfl
@[simp] theorem setDomain_clksel (s : State) (i : DomainNo) (v : DomainRecord) : (s.setDomain i v).clksel = s.clksel := rfl
@[simp] theorem setDomain_refPhase (s : State) (i : DomainNo) (v : DomainRecord) : (s.setDomain i v).refPhase = s.refPhase := rfl
@[simp] theorem setDomain_tickPeriod (s : State) (i : DomainNo) (v : DomainRecord) : (s.setDomain i v).tickPeriod = s.tickPeriod := rfl
@[simp] theorem setDomain_elapsed (s : State) (i : DomainNo) (v : DomainRecord) : (s.setDomain i v).elapsed = s.elapsed := rfl
@[simp] theorem setDomain_pendingTicks (s : State) (i : DomainNo) (v : DomainRecord) : (s.setDomain i v).pendingTicks = s.pendingTicks := rfl
@[simp] theorem setDomain_leases (s : State) (i : DomainNo) (v : DomainRecord) : (s.setDomain i v).leases = s.leases := rfl
@[simp] theorem setDomain_tokenCounter (s : State) (i : DomainNo) (v : DomainRecord) : (s.setDomain i v).tokenCounter = s.tokenCounter := rfl
@[simp] theorem setDomain_waiters (s : State) (i : DomainNo) (v : DomainRecord) : (s.setDomain i v).waiters = s.waiters := rfl
@[simp] theorem setDomain_waitSlots (s : State) (i : DomainNo) (v : DomainRecord) : (s.setDomain i v).waitSlots = s.waitSlots := rfl
@[simp] theorem setDomain_arrivals (s : State) (i : DomainNo) (v : DomainRecord) : (s.setDomain i v).arrivals = s.arrivals := rfl
@[simp] theorem setDomain_agents (s : State) (i : DomainNo) (v : DomainRecord) : (s.setDomain i v).agents = s.agents := rfl
@[simp] theorem setDomain_access (s : State) (i : DomainNo) (v : DomainRecord) : (s.setDomain i v).access = s.access := rfl
@[simp] theorem setDomain_notices (s : State) (i : DomainNo) (v : DomainRecord) : (s.setDomain i v).notices = s.notices := rfl
@[simp] theorem setDomain_ports (s : State) (i : DomainNo) (v : DomainRecord) : (s.setDomain i v).ports = s.ports := rfl
@[simp] theorem setDomain_cursors (s : State) (i : DomainNo) (v : DomainRecord) : (s.setDomain i v).cursors = s.cursors := rfl
@[simp] theorem setDomain_lastServed (s : State) (i : DomainNo) (v : DomainRecord) : (s.setDomain i v).lastServed = s.lastServed := rfl
@[simp] theorem setDomain_checkDenials (s : State) (i : DomainNo) (v : DomainRecord) : (s.setDomain i v).checkDenials = s.checkDenials := rfl
@[simp] theorem setDomain_draws (s : State) (i : DomainNo) (v : DomainRecord) : (s.setDomain i v).draws = s.draws := rfl
@[simp] theorem setDomain_pending (s : State) (i : DomainNo) (v : DomainRecord) : (s.setDomain i v).pending = s.pending := rfl
@[simp] theorem setDomain_lease (s : State) (i : DomainNo) (v : DomainRecord) (j : LeaseIdx) : (s.setDomain i v).lease j = s.lease j := rfl
@[simp] theorem setDomain_agent (s : State) (i : DomainNo) (v : DomainRecord) (j : AgentNo) : (s.setDomain i v).agent j = s.agent j := rfl
@[simp] theorem setDomain_accessOf (s : State) (i : DomainNo) (v : DomainRecord) (j : AgentNo) : (s.setDomain i v).accessOf j = s.accessOf j := rfl
@[simp] theorem setDomain_notice (s : State) (i : DomainNo) (v : DomainRecord) (j : AgentNo) : (s.setDomain i v).notice j = s.notice j := rfl
@[simp] theorem setDomain_port (s : State) (i : DomainNo) (v : DomainRecord) (j : PortNo) : (s.setDomain i v).port j = s.port j := rfl
@[simp] theorem setDomain_cursor (s : State) (i : DomainNo) (v : DomainRecord) (j : AgentNo) : (s.setDomain i v).cursor j = s.cursor j := rfl
@[simp] theorem setDomain_waitSlot (s : State) (i : DomainNo) (v : DomainRecord) (j : WaitIdx) : (s.setDomain i v).waitSlot j = s.waitSlot j := rfl
@[simp] theorem setDomain_domain_self (s : State) (i : DomainNo) (v : DomainRecord) : (s.setDomain i v).domain i = v := by simp [setDomain, domain]
theorem setDomain_domain_ne (s : State) (i : DomainNo) (v : DomainRecord) (j : DomainNo) (h : j ≠ i) : (s.setDomain i v).domain j = s.domain j := by
  have h2 : i.val ≠ j.val := fun e => h (Fin.ext e.symm)
  simp [setDomain, domain, h2]
theorem setDomain_domain (s : State) (i : DomainNo) (v : DomainRecord) (j : DomainNo) : (s.setDomain i v).domain j = if j = i then v else s.domain j := by
  by_cases h : j = i
  · subst h; simp
  · simp [h, setDomain_domain_ne]
theorem setDomain_setDomain (s : State) (i : DomainNo) (v : DomainRecord) (v2 : DomainRecord) : (s.setDomain i v).setDomain i v2 = s.setDomain i v2 := by simp [setDomain]

/-! ### setNotice -/

@[simp] theorem setNotice_rstAsserted (s : State) (i : AgentNo) (v : NoticeState) : (s.setNotice i v).rstAsserted = s.rstAsserted := rfl
@[simp] theorem setNotice_clksel (s : State) (i : AgentNo) (v : NoticeState) : (s.setNotice i v).clksel = s.clksel := rfl
@[simp] theorem setNotice_refPhase (s : State) (i : AgentNo) (v : NoticeState) : (s.setNotice i v).refPhase = s.refPhase := rfl
@[simp] theorem setNotice_tickPeriod (s : State) (i : AgentNo) (v : NoticeState) : (s.setNotice i v).tickPeriod = s.tickPeriod := rfl
@[simp] theorem setNotice_elapsed (s : State) (i : AgentNo) (v : NoticeState) : (s.setNotice i v).elapsed = s.elapsed := rfl
@[simp] theorem setNotice_pendingTicks (s : State) (i : AgentNo) (v : NoticeState) : (s.setNotice i v).pendingTicks = s.pendingTicks := rfl
@[simp] theorem setNotice_leases (s : State) (i : AgentNo) (v : NoticeState) : (s.setNotice i v).leases = s.leases := rfl
@[simp] theorem setNotice_tokenCounter (s : State) (i : AgentNo) (v : NoticeState) : (s.setNotice i v).tokenCounter = s.tokenCounter := rfl
@[simp] theorem setNotice_waiters (s : State) (i : AgentNo) (v : NoticeState) : (s.setNotice i v).waiters = s.waiters := rfl
@[simp] theorem setNotice_waitSlots (s : State) (i : AgentNo) (v : NoticeState) : (s.setNotice i v).waitSlots = s.waitSlots := rfl
@[simp] theorem setNotice_arrivals (s : State) (i : AgentNo) (v : NoticeState) : (s.setNotice i v).arrivals = s.arrivals := rfl
@[simp] theorem setNotice_agents (s : State) (i : AgentNo) (v : NoticeState) : (s.setNotice i v).agents = s.agents := rfl
@[simp] theorem setNotice_access (s : State) (i : AgentNo) (v : NoticeState) : (s.setNotice i v).access = s.access := rfl
@[simp] theorem setNotice_domains (s : State) (i : AgentNo) (v : NoticeState) : (s.setNotice i v).domains = s.domains := rfl
@[simp] theorem setNotice_ports (s : State) (i : AgentNo) (v : NoticeState) : (s.setNotice i v).ports = s.ports := rfl
@[simp] theorem setNotice_cursors (s : State) (i : AgentNo) (v : NoticeState) : (s.setNotice i v).cursors = s.cursors := rfl
@[simp] theorem setNotice_lastServed (s : State) (i : AgentNo) (v : NoticeState) : (s.setNotice i v).lastServed = s.lastServed := rfl
@[simp] theorem setNotice_checkDenials (s : State) (i : AgentNo) (v : NoticeState) : (s.setNotice i v).checkDenials = s.checkDenials := rfl
@[simp] theorem setNotice_draws (s : State) (i : AgentNo) (v : NoticeState) : (s.setNotice i v).draws = s.draws := rfl
@[simp] theorem setNotice_pending (s : State) (i : AgentNo) (v : NoticeState) : (s.setNotice i v).pending = s.pending := rfl
@[simp] theorem setNotice_lease (s : State) (i : AgentNo) (v : NoticeState) (j : LeaseIdx) : (s.setNotice i v).lease j = s.lease j := rfl
@[simp] theorem setNotice_agent (s : State) (i : AgentNo) (v : NoticeState) (j : AgentNo) : (s.setNotice i v).agent j = s.agent j := rfl
@[simp] theorem setNotice_accessOf (s : State) (i : AgentNo) (v : NoticeState) (j : AgentNo) : (s.setNotice i v).accessOf j = s.accessOf j := rfl
@[simp] theorem setNotice_domain (s : State) (i : AgentNo) (v : NoticeState) (j : DomainNo) : (s.setNotice i v).domain j = s.domain j := rfl
@[simp] theorem setNotice_port (s : State) (i : AgentNo) (v : NoticeState) (j : PortNo) : (s.setNotice i v).port j = s.port j := rfl
@[simp] theorem setNotice_cursor (s : State) (i : AgentNo) (v : NoticeState) (j : AgentNo) : (s.setNotice i v).cursor j = s.cursor j := rfl
@[simp] theorem setNotice_waitSlot (s : State) (i : AgentNo) (v : NoticeState) (j : WaitIdx) : (s.setNotice i v).waitSlot j = s.waitSlot j := rfl
@[simp] theorem setNotice_notice_self (s : State) (i : AgentNo) (v : NoticeState) : (s.setNotice i v).notice i = v := by simp [setNotice, notice]
theorem setNotice_notice_ne (s : State) (i : AgentNo) (v : NoticeState) (j : AgentNo) (h : j ≠ i) : (s.setNotice i v).notice j = s.notice j := by
  have h2 : i.val ≠ j.val := fun e => h (Fin.ext e.symm)
  simp [setNotice, notice, h2]
theorem setNotice_notice (s : State) (i : AgentNo) (v : NoticeState) (j : AgentNo) : (s.setNotice i v).notice j = if j = i then v else s.notice j := by
  by_cases h : j = i
  · subst h; simp
  · simp [h, setNotice_notice_ne]
theorem setNotice_setNotice (s : State) (i : AgentNo) (v : NoticeState) (v2 : NoticeState) : (s.setNotice i v).setNotice i v2 = s.setNotice i v2 := by simp [setNotice]

/-! ### setPort -/

@[simp] theorem setPort_rstAsserted (s : State) (i : PortNo) (v : Port) : (s.setPort i v).rstAsserted = s.rstAsserted := rfl
@[simp] theorem setPort_clksel (s : State) (i : PortNo) (v : Port) : (s.setPort i v).clksel = s.clksel := rfl
@[simp] theorem setPort_refPhase (s : State) (i : PortNo) (v : Port) : (s.setPort i v).refPhase = s.refPhase := rfl
@[simp] theorem setPort_tickPeriod (s : State) (i : PortNo) (v : Port) : (s.setPort i v).tickPeriod = s.tickPeriod := rfl
@[simp] theorem setPort_elapsed (s : State) (i : PortNo) (v : Port) : (s.setPort i v).elapsed = s.elapsed := rfl
@[simp] theorem setPort_pendingTicks (s : State) (i : PortNo) (v : Port) : (s.setPort i v).pendingTicks = s.pendingTicks := rfl
@[simp] theorem setPort_leases (s : State) (i : PortNo) (v : Port) : (s.setPort i v).leases = s.leases := rfl
@[simp] theorem setPort_tokenCounter (s : State) (i : PortNo) (v : Port) : (s.setPort i v).tokenCounter = s.tokenCounter := rfl
@[simp] theorem setPort_waiters (s : State) (i : PortNo) (v : Port) : (s.setPort i v).waiters = s.waiters := rfl
@[simp] theorem setPort_waitSlots (s : State) (i : PortNo) (v : Port) : (s.setPort i v).waitSlots = s.waitSlots := rfl
@[simp] theorem setPort_arrivals (s : State) (i : PortNo) (v : Port) : (s.setPort i v).arrivals = s.arrivals := rfl
@[simp] theorem setPort_agents (s : State) (i : PortNo) (v : Port) : (s.setPort i v).agents = s.agents := rfl
@[simp] theorem setPort_access (s : State) (i : PortNo) (v : Port) : (s.setPort i v).access = s.access := rfl
@[simp] theorem setPort_domains (s : State) (i : PortNo) (v : Port) : (s.setPort i v).domains = s.domains := rfl
@[simp] theorem setPort_notices (s : State) (i : PortNo) (v : Port) : (s.setPort i v).notices = s.notices := rfl
@[simp] theorem setPort_cursors (s : State) (i : PortNo) (v : Port) : (s.setPort i v).cursors = s.cursors := rfl
@[simp] theorem setPort_lastServed (s : State) (i : PortNo) (v : Port) : (s.setPort i v).lastServed = s.lastServed := rfl
@[simp] theorem setPort_checkDenials (s : State) (i : PortNo) (v : Port) : (s.setPort i v).checkDenials = s.checkDenials := rfl
@[simp] theorem setPort_draws (s : State) (i : PortNo) (v : Port) : (s.setPort i v).draws = s.draws := rfl
@[simp] theorem setPort_pending (s : State) (i : PortNo) (v : Port) : (s.setPort i v).pending = s.pending := rfl
@[simp] theorem setPort_lease (s : State) (i : PortNo) (v : Port) (j : LeaseIdx) : (s.setPort i v).lease j = s.lease j := rfl
@[simp] theorem setPort_agent (s : State) (i : PortNo) (v : Port) (j : AgentNo) : (s.setPort i v).agent j = s.agent j := rfl
@[simp] theorem setPort_accessOf (s : State) (i : PortNo) (v : Port) (j : AgentNo) : (s.setPort i v).accessOf j = s.accessOf j := rfl
@[simp] theorem setPort_domain (s : State) (i : PortNo) (v : Port) (j : DomainNo) : (s.setPort i v).domain j = s.domain j := rfl
@[simp] theorem setPort_notice (s : State) (i : PortNo) (v : Port) (j : AgentNo) : (s.setPort i v).notice j = s.notice j := rfl
@[simp] theorem setPort_cursor (s : State) (i : PortNo) (v : Port) (j : AgentNo) : (s.setPort i v).cursor j = s.cursor j := rfl
@[simp] theorem setPort_waitSlot (s : State) (i : PortNo) (v : Port) (j : WaitIdx) : (s.setPort i v).waitSlot j = s.waitSlot j := rfl
@[simp] theorem setPort_port_self (s : State) (i : PortNo) (v : Port) : (s.setPort i v).port i = v := by simp [setPort, port]
theorem setPort_port_ne (s : State) (i : PortNo) (v : Port) (j : PortNo) (h : j ≠ i) : (s.setPort i v).port j = s.port j := by
  have h2 : i.val ≠ j.val := fun e => h (Fin.ext e.symm)
  simp [setPort, port, h2]
theorem setPort_port (s : State) (i : PortNo) (v : Port) (j : PortNo) : (s.setPort i v).port j = if j = i then v else s.port j := by
  by_cases h : j = i
  · subst h; simp
  · simp [h, setPort_port_ne]
theorem setPort_setPort (s : State) (i : PortNo) (v : Port) (v2 : Port) : (s.setPort i v).setPort i v2 = s.setPort i v2 := by simp [setPort]

/-! ### setCursor -/

@[simp] theorem setCursor_rstAsserted (s : State) (i : AgentNo) (v : Option Cursor) : (s.setCursor i v).rstAsserted = s.rstAsserted := rfl
@[simp] theorem setCursor_clksel (s : State) (i : AgentNo) (v : Option Cursor) : (s.setCursor i v).clksel = s.clksel := rfl
@[simp] theorem setCursor_refPhase (s : State) (i : AgentNo) (v : Option Cursor) : (s.setCursor i v).refPhase = s.refPhase := rfl
@[simp] theorem setCursor_tickPeriod (s : State) (i : AgentNo) (v : Option Cursor) : (s.setCursor i v).tickPeriod = s.tickPeriod := rfl
@[simp] theorem setCursor_elapsed (s : State) (i : AgentNo) (v : Option Cursor) : (s.setCursor i v).elapsed = s.elapsed := rfl
@[simp] theorem setCursor_pendingTicks (s : State) (i : AgentNo) (v : Option Cursor) : (s.setCursor i v).pendingTicks = s.pendingTicks := rfl
@[simp] theorem setCursor_leases (s : State) (i : AgentNo) (v : Option Cursor) : (s.setCursor i v).leases = s.leases := rfl
@[simp] theorem setCursor_tokenCounter (s : State) (i : AgentNo) (v : Option Cursor) : (s.setCursor i v).tokenCounter = s.tokenCounter := rfl
@[simp] theorem setCursor_waiters (s : State) (i : AgentNo) (v : Option Cursor) : (s.setCursor i v).waiters = s.waiters := rfl
@[simp] theorem setCursor_waitSlots (s : State) (i : AgentNo) (v : Option Cursor) : (s.setCursor i v).waitSlots = s.waitSlots := rfl
@[simp] theorem setCursor_arrivals (s : State) (i : AgentNo) (v : Option Cursor) : (s.setCursor i v).arrivals = s.arrivals := rfl
@[simp] theorem setCursor_agents (s : State) (i : AgentNo) (v : Option Cursor) : (s.setCursor i v).agents = s.agents := rfl
@[simp] theorem setCursor_access (s : State) (i : AgentNo) (v : Option Cursor) : (s.setCursor i v).access = s.access := rfl
@[simp] theorem setCursor_domains (s : State) (i : AgentNo) (v : Option Cursor) : (s.setCursor i v).domains = s.domains := rfl
@[simp] theorem setCursor_notices (s : State) (i : AgentNo) (v : Option Cursor) : (s.setCursor i v).notices = s.notices := rfl
@[simp] theorem setCursor_ports (s : State) (i : AgentNo) (v : Option Cursor) : (s.setCursor i v).ports = s.ports := rfl
@[simp] theorem setCursor_lastServed (s : State) (i : AgentNo) (v : Option Cursor) : (s.setCursor i v).lastServed = s.lastServed := rfl
@[simp] theorem setCursor_checkDenials (s : State) (i : AgentNo) (v : Option Cursor) : (s.setCursor i v).checkDenials = s.checkDenials := rfl
@[simp] theorem setCursor_draws (s : State) (i : AgentNo) (v : Option Cursor) : (s.setCursor i v).draws = s.draws := rfl
@[simp] theorem setCursor_pending (s : State) (i : AgentNo) (v : Option Cursor) : (s.setCursor i v).pending = s.pending := rfl
@[simp] theorem setCursor_lease (s : State) (i : AgentNo) (v : Option Cursor) (j : LeaseIdx) : (s.setCursor i v).lease j = s.lease j := rfl
@[simp] theorem setCursor_agent (s : State) (i : AgentNo) (v : Option Cursor) (j : AgentNo) : (s.setCursor i v).agent j = s.agent j := rfl
@[simp] theorem setCursor_accessOf (s : State) (i : AgentNo) (v : Option Cursor) (j : AgentNo) : (s.setCursor i v).accessOf j = s.accessOf j := rfl
@[simp] theorem setCursor_domain (s : State) (i : AgentNo) (v : Option Cursor) (j : DomainNo) : (s.setCursor i v).domain j = s.domain j := rfl
@[simp] theorem setCursor_notice (s : State) (i : AgentNo) (v : Option Cursor) (j : AgentNo) : (s.setCursor i v).notice j = s.notice j := rfl
@[simp] theorem setCursor_port (s : State) (i : AgentNo) (v : Option Cursor) (j : PortNo) : (s.setCursor i v).port j = s.port j := rfl
@[simp] theorem setCursor_waitSlot (s : State) (i : AgentNo) (v : Option Cursor) (j : WaitIdx) : (s.setCursor i v).waitSlot j = s.waitSlot j := rfl
@[simp] theorem setCursor_cursor_self (s : State) (i : AgentNo) (v : Option Cursor) : (s.setCursor i v).cursor i = v := by simp [setCursor, cursor]
theorem setCursor_cursor_ne (s : State) (i : AgentNo) (v : Option Cursor) (j : AgentNo) (h : j ≠ i) : (s.setCursor i v).cursor j = s.cursor j := by
  have h2 : i.val ≠ j.val := fun e => h (Fin.ext e.symm)
  simp [setCursor, cursor, h2]
theorem setCursor_cursor (s : State) (i : AgentNo) (v : Option Cursor) (j : AgentNo) : (s.setCursor i v).cursor j = if j = i then v else s.cursor j := by
  by_cases h : j = i
  · subst h; simp
  · simp [h, setCursor_cursor_ne]
theorem setCursor_setCursor (s : State) (i : AgentNo) (v : Option Cursor) (v2 : Option Cursor) : (s.setCursor i v).setCursor i v2 = s.setCursor i v2 := by simp [setCursor]

/-! ### setWaitSlot -/

@[simp] theorem setWaitSlot_rstAsserted (s : State) (i : WaitIdx) (v : WaitSlot) : (s.setWaitSlot i v).rstAsserted = s.rstAsserted := rfl
@[simp] theorem setWaitSlot_clksel (s : State) (i : WaitIdx) (v : WaitSlot) : (s.setWaitSlot i v).clksel = s.clksel := rfl
@[simp] theorem setWaitSlot_refPhase (s : State) (i : WaitIdx) (v : WaitSlot) : (s.setWaitSlot i v).refPhase = s.refPhase := rfl
@[simp] theorem setWaitSlot_tickPeriod (s : State) (i : WaitIdx) (v : WaitSlot) : (s.setWaitSlot i v).tickPeriod = s.tickPeriod := rfl
@[simp] theorem setWaitSlot_elapsed (s : State) (i : WaitIdx) (v : WaitSlot) : (s.setWaitSlot i v).elapsed = s.elapsed := rfl
@[simp] theorem setWaitSlot_pendingTicks (s : State) (i : WaitIdx) (v : WaitSlot) : (s.setWaitSlot i v).pendingTicks = s.pendingTicks := rfl
@[simp] theorem setWaitSlot_leases (s : State) (i : WaitIdx) (v : WaitSlot) : (s.setWaitSlot i v).leases = s.leases := rfl
@[simp] theorem setWaitSlot_tokenCounter (s : State) (i : WaitIdx) (v : WaitSlot) : (s.setWaitSlot i v).tokenCounter = s.tokenCounter := rfl
@[simp] theorem setWaitSlot_waiters (s : State) (i : WaitIdx) (v : WaitSlot) : (s.setWaitSlot i v).waiters = s.waiters := rfl
@[simp] theorem setWaitSlot_arrivals (s : State) (i : WaitIdx) (v : WaitSlot) : (s.setWaitSlot i v).arrivals = s.arrivals := rfl
@[simp] theorem setWaitSlot_agents (s : State) (i : WaitIdx) (v : WaitSlot) : (s.setWaitSlot i v).agents = s.agents := rfl
@[simp] theorem setWaitSlot_access (s : State) (i : WaitIdx) (v : WaitSlot) : (s.setWaitSlot i v).access = s.access := rfl
@[simp] theorem setWaitSlot_domains (s : State) (i : WaitIdx) (v : WaitSlot) : (s.setWaitSlot i v).domains = s.domains := rfl
@[simp] theorem setWaitSlot_notices (s : State) (i : WaitIdx) (v : WaitSlot) : (s.setWaitSlot i v).notices = s.notices := rfl
@[simp] theorem setWaitSlot_ports (s : State) (i : WaitIdx) (v : WaitSlot) : (s.setWaitSlot i v).ports = s.ports := rfl
@[simp] theorem setWaitSlot_cursors (s : State) (i : WaitIdx) (v : WaitSlot) : (s.setWaitSlot i v).cursors = s.cursors := rfl
@[simp] theorem setWaitSlot_lastServed (s : State) (i : WaitIdx) (v : WaitSlot) : (s.setWaitSlot i v).lastServed = s.lastServed := rfl
@[simp] theorem setWaitSlot_checkDenials (s : State) (i : WaitIdx) (v : WaitSlot) : (s.setWaitSlot i v).checkDenials = s.checkDenials := rfl
@[simp] theorem setWaitSlot_draws (s : State) (i : WaitIdx) (v : WaitSlot) : (s.setWaitSlot i v).draws = s.draws := rfl
@[simp] theorem setWaitSlot_pending (s : State) (i : WaitIdx) (v : WaitSlot) : (s.setWaitSlot i v).pending = s.pending := rfl
@[simp] theorem setWaitSlot_lease (s : State) (i : WaitIdx) (v : WaitSlot) (j : LeaseIdx) : (s.setWaitSlot i v).lease j = s.lease j := rfl
@[simp] theorem setWaitSlot_agent (s : State) (i : WaitIdx) (v : WaitSlot) (j : AgentNo) : (s.setWaitSlot i v).agent j = s.agent j := rfl
@[simp] theorem setWaitSlot_accessOf (s : State) (i : WaitIdx) (v : WaitSlot) (j : AgentNo) : (s.setWaitSlot i v).accessOf j = s.accessOf j := rfl
@[simp] theorem setWaitSlot_domain (s : State) (i : WaitIdx) (v : WaitSlot) (j : DomainNo) : (s.setWaitSlot i v).domain j = s.domain j := rfl
@[simp] theorem setWaitSlot_notice (s : State) (i : WaitIdx) (v : WaitSlot) (j : AgentNo) : (s.setWaitSlot i v).notice j = s.notice j := rfl
@[simp] theorem setWaitSlot_port (s : State) (i : WaitIdx) (v : WaitSlot) (j : PortNo) : (s.setWaitSlot i v).port j = s.port j := rfl
@[simp] theorem setWaitSlot_cursor (s : State) (i : WaitIdx) (v : WaitSlot) (j : AgentNo) : (s.setWaitSlot i v).cursor j = s.cursor j := rfl
@[simp] theorem setWaitSlot_waitSlot_self (s : State) (i : WaitIdx) (v : WaitSlot) : (s.setWaitSlot i v).waitSlot i = v := by simp [setWaitSlot, waitSlot]
theorem setWaitSlot_waitSlot_ne (s : State) (i : WaitIdx) (v : WaitSlot) (j : WaitIdx) (h : j ≠ i) : (s.setWaitSlot i v).waitSlot j = s.waitSlot j := by
  have h2 : i.val ≠ j.val := fun e => h (Fin.ext e.symm)
  simp [setWaitSlot, waitSlot, h2]
theorem setWaitSlot_waitSlot (s : State) (i : WaitIdx) (v : WaitSlot) (j : WaitIdx) : (s.setWaitSlot i v).waitSlot j = if j = i then v else s.waitSlot j := by
  by_cases h : j = i
  · subst h; simp
  · simp [h, setWaitSlot_waitSlot_ne]
theorem setWaitSlot_setWaitSlot (s : State) (i : WaitIdx) (v : WaitSlot) (v2 : WaitSlot) : (s.setWaitSlot i v).setWaitSlot i v2 = s.setWaitSlot i v2 := by simp [setWaitSlot]

/-! ### serve -/

@[simp] theorem serve_rstAsserted (s : State) (p : PortNo) : (s.serve p).rstAsserted = s.rstAsserted := rfl
@[simp] theorem serve_clksel (s : State) (p : PortNo) : (s.serve p).clksel = s.clksel := rfl
@[simp] theorem serve_refPhase (s : State) (p : PortNo) : (s.serve p).refPhase = s.refPhase := rfl
@[simp] theorem serve_tickPeriod (s : State) (p : PortNo) : (s.serve p).tickPeriod = s.tickPeriod := rfl
@[simp] theorem serve_elapsed (s : State) (p : PortNo) : (s.serve p).elapsed = s.elapsed := rfl
@[simp] theorem serve_pendingTicks (s : State) (p : PortNo) : (s.serve p).pendingTicks = s.pendingTicks := rfl
@[simp] theorem serve_leases (s : State) (p : PortNo) : (s.serve p).leases = s.leases := rfl
@[simp] theorem serve_tokenCounter (s : State) (p : PortNo) : (s.serve p).tokenCounter = s.tokenCounter := rfl
@[simp] theorem serve_waiters (s : State) (p : PortNo) : (s.serve p).waiters = s.waiters := rfl
@[simp] theorem serve_waitSlots (s : State) (p : PortNo) : (s.serve p).waitSlots = s.waitSlots := rfl
@[simp] theorem serve_arrivals (s : State) (p : PortNo) : (s.serve p).arrivals = s.arrivals := rfl
@[simp] theorem serve_agents (s : State) (p : PortNo) : (s.serve p).agents = s.agents := rfl
@[simp] theorem serve_access (s : State) (p : PortNo) : (s.serve p).access = s.access := rfl
@[simp] theorem serve_domains (s : State) (p : PortNo) : (s.serve p).domains = s.domains := rfl
@[simp] theorem serve_notices (s : State) (p : PortNo) : (s.serve p).notices = s.notices := rfl
@[simp] theorem serve_ports (s : State) (p : PortNo) : (s.serve p).ports = s.ports := rfl
@[simp] theorem serve_cursors (s : State) (p : PortNo) : (s.serve p).cursors = s.cursors := rfl
@[simp] theorem serve_lastServed (s : State) (p : PortNo) : (s.serve p).lastServed = p := rfl
@[simp] theorem serve_checkDenials (s : State) (p : PortNo) : (s.serve p).checkDenials = s.checkDenials := rfl
@[simp] theorem serve_draws (s : State) (p : PortNo) : (s.serve p).draws = s.draws := rfl
@[simp] theorem serve_pending (s : State) (p : PortNo) : (s.serve p).pending = s.pending := rfl
@[simp] theorem serve_lease (s : State) (p : PortNo) (i : LeaseIdx) : (s.serve p).lease i = s.lease i := rfl
@[simp] theorem serve_agent (s : State) (p : PortNo) (i : AgentNo) : (s.serve p).agent i = s.agent i := rfl
@[simp] theorem serve_accessOf (s : State) (p : PortNo) (i : AgentNo) : (s.serve p).accessOf i = s.accessOf i := rfl
@[simp] theorem serve_domain (s : State) (p : PortNo) (i : DomainNo) : (s.serve p).domain i = s.domain i := rfl
@[simp] theorem serve_notice (s : State) (p : PortNo) (i : AgentNo) : (s.serve p).notice i = s.notice i := rfl
@[simp] theorem serve_port (s : State) (p : PortNo) (i : PortNo) : (s.serve p).port i = s.port i := rfl
@[simp] theorem serve_cursor (s : State) (p : PortNo) (i : AgentNo) : (s.serve p).cursor i = s.cursor i := rfl
@[simp] theorem serve_waitSlot (s : State) (p : PortNo) (i : WaitIdx) : (s.serve p).waitSlot i = s.waitSlot i := rfl

end State

end Sys2Proof.Machine
end

