-- ==== Sys2Proof/Laws/Ops.lean ====
section
/-! SUPPORT. One lemma for each shared operation, saying once what it does: proofs about commands cite these in place
of unfolding the operations. -/

namespace Sys2Proof.Machine

/-! ### Searching the lease table -/

theorem mem_liveLeases (s : State) (i : LeaseIdx) (l : Lease) :
    (i, l) ∈ liveLeases s ↔ s.lease i = .held l := by
  simp only [liveLeases, List.mem_filterMap, List.mem_finRange, true_and]
  constructor
  · rintro ⟨j, hj⟩
    cases h : s.lease j with
    | free m => simp [h] at hj
    | held m =>
      simp [h] at hj
      obtain ⟨rfl, rfl⟩ := hj
      exact h
  · intro h
    exact ⟨i, by simp [h]⟩

theorem liveLeases_congr {s t : State} (h : s.leases = t.leases) : liveLeases s = liveLeases t := by
  simp only [liveLeases, State.lease, h]

theorem finRange_pairwise (n : Nat) : (List.finRange n).Pairwise (· < ·) := by
  rw [List.pairwise_iff_getElem]
  intro i j hi hj hij
  simp [Fin.lt_def, hij]

/-- The search lists leases in ascending slot order (R8). -/
theorem liveLeases_ascending (s : State) : (liveLeases s).Pairwise fun a b => a.1 < b.1 := by
  unfold liveLeases
  rw [List.pairwise_filterMap]
  refine (finRange_pairwise 64).imp ?_
  intro i j hij a ha b hb
  cases hi : s.lease i <;> cases hj : s.lease j <;> simp [hi, hj] at ha hb
  subst ha hb
  exact hij

theorem mem_conflictSearch (s : State) (r : Range) (m : Mode) (i : LeaseIdx) (l : Lease) :
    (i, l) ∈ conflictSearch s r m ↔ s.lease i = .held l ∧ conflicts l.range l.mode r m = true := by
  simp [conflictSearch, mem_liveLeases]

theorem mem_overlapSearch (s : State) (r : Range) (i : LeaseIdx) (l : Lease) :
    (i, l) ∈ overlapSearch s r ↔ s.lease i = .held l ∧ overlaps l.range r = true := by
  simp [overlapSearch, mem_liveLeases]

/-- The first lease of a filtered search is the one in the lowest slot, and there is none where no lease passes. -/
theorem head?_of_search (s : State) (f : LeaseIdx × Lease → Bool) (i : LeaseIdx) (l : Lease) :
    ((liveLeases s).filter f).head? = some (i, l) ↔
      s.lease i = .held l ∧ f (i, l) = true ∧ ∀ j < i, ∀ m, s.lease j = .held m → f (j, m) = false := by
  have asc : ((liveLeases s).filter f).Pairwise fun a b => a.1 < b.1 := (liveLeases_ascending s).filter f
  have mem : ∀ j m, (j, m) ∈ (liveLeases s).filter f ↔ s.lease j = .held m ∧ f (j, m) = true := by
    intro j m; simp [mem_liveLeases]
  generalize (liveLeases s).filter f = xs at asc mem
  cases xs with
  | nil =>
    simp only [List.head?_nil, reduceCtorEq, false_iff]
    rintro ⟨h1, h2, -⟩
    exact absurd ((mem i l).2 ⟨h1, h2⟩) (by simp)
  | cons a rest =>
    obtain ⟨j, m⟩ := a
    simp only [List.head?_cons, Option.some.injEq, Prod.mk.injEq]
    rw [List.pairwise_cons] at asc
    constructor
    · rintro ⟨rfl, rfl⟩
      have h := (mem j m).1 (by simp)
      refine ⟨h.1, h.2, fun j2 lt m2 h2 => ?_⟩
      cases hf : f (j2, m2) with
      | false => rfl
      | true =>
        have h3 := (mem j2 m2).2 ⟨h2, hf⟩
        rcases List.mem_cons.1 h3 with h4 | h4
        · simp only [Prod.mk.injEq] at h4; rw [h4.1] at lt; exact absurd lt (Fin.lt_irrefl _)
        · exact absurd lt (Fin.not_lt.2 (Fin.le_of_lt (asc.1 _ h4)))
    · rintro ⟨h1, h2, h3⟩
      have h4 := (mem i l).2 ⟨h1, h2⟩
      rcases List.mem_cons.1 h4 with h5 | h5
      · simp at h5; exact ⟨h5.1.symm, h5.2.symm⟩
      · have lt := asc.1 _ h5
        have h := (mem j m).1 (by simp)
        have := h3 j lt m h.1
        rw [h.2] at this; cases this

theorem search_eq_nil (s : State) (f : LeaseIdx × Lease → Bool) :
    (liveLeases s).filter f = [] ↔ ∀ i l, s.lease i = .held l → f (i, l) = false := by
  rw [List.filter_eq_nil_iff]
  constructor
  · intro h i l hl
    simpa using h (i, l) ((mem_liveLeases s i l).2 hl)
  · rintro h ⟨i, l⟩ hm
    simp [h i l ((mem_liveLeases s i l).1 hm)]

theorem mem_holdings (s : State) (k : AgentNo) (i : LeaseIdx) :
    i ∈ holdings s k ↔ ∃ l, s.lease i = .held l ∧ l.holder = k := by
  simp only [holdings, List.mem_map, List.mem_filter, decide_eq_true_eq]
  constructor
  · rintro ⟨⟨j, l⟩, ⟨h1, h2⟩, h3⟩
    subst h3
    exact ⟨l, (mem_liveLeases s j l).1 h1, h2⟩
  · rintro ⟨l, h1, h2⟩
    exact ⟨(i, l), ⟨(mem_liveLeases s i l).2 h1, h2⟩, rfl⟩

theorem tokenHeld_iff (s : State) (t : Token) :
    tokenHeld s t = true ↔ ∃ i l, s.lease i = .held l ∧ l.token = t := by
  simp only [tokenHeld, List.any_eq_true, decide_eq_true_eq]
  constructor
  · rintro ⟨⟨i, l⟩, h1, h2⟩
    exact ⟨i, l, (mem_liveLeases s i l).1 h1, h2⟩
  · rintro ⟨i, l, h1, h2⟩
    exact ⟨(i, l), (mem_liveLeases s i l).2 h1, h2⟩

theorem freeLeaseSlot_eq_some (s : State) (i : LeaseIdx) : freeLeaseSlot s = some i ↔ LowestFreeSlot s i := by
  rw [freeLeaseSlot, List.find?_eq_some_iff_getElem, LowestFreeSlot]
  constructor
  · rintro ⟨h1, n, hn, h2, h3⟩
    have hi : n = i.val := by simpa using congrArg Fin.val h2
    refine ⟨?_, fun j hj => ?_⟩
    · cases h : s.lease i with
      | free m => exact ⟨m, rfl⟩
      | held l => simp [h] at h1
    · have := h3 j.val (by have := Fin.lt_def.1 hj; omega)
      cases h : s.lease j with
      | free m => simp [h] at this
      | held l => exact ⟨l, rfl⟩
  · rintro ⟨⟨m, hm⟩, h2⟩
    refine ⟨by simp [hm], i.val, by simp, by simp, fun j hj => ?_⟩
    have hj' : j < 64 := by omega
    obtain ⟨l, hl⟩ := h2 ⟨j, hj'⟩ (by simp [Fin.lt_def]; omega)
    simp [hl]

theorem freeLeaseSlot_eq_none (s : State) : freeLeaseSlot s = none ↔ ∀ i, ∃ l, s.lease i = .held l := by
  simp only [freeLeaseSlot, List.find?_eq_none, List.mem_finRange, true_implies]
  refine forall_congr' fun i => ?_
  cases h : s.lease i <;> simp

/-! ### Resolving ids -/

theorem resolveLease_held {s : State} {id : LeaseId} {l : Lease} (h : s.lease id.slot = .held l) :
    resolveLease s id = if l.gen = id.gen then .live l else .noLease := by
  simp [resolveLease, h]

theorem resolveLease_ended {s : State} {id : LeaseId} {m : LeaseMemory} (h : s.lease id.slot = .free (some m)) :
    resolveLease s id = if m.gen = id.gen then .ended m else .noLease := by
  simp [resolveLease, h]

theorem resolveLease_empty {s : State} {id : LeaseId} (h : s.lease id.slot = .free none) :
    resolveLease s id = .noLease := by
  simp [resolveLease, h]

theorem waitOccupied_iff (s : State) (i : WaitIdx) : waitOccupied s i = true ↔ ∃ w ∈ s.waiters, w.id.slot = i := by
  simp [waitOccupied]

theorem freeWaitSlot_eq_some (s : State) (i : WaitIdx) : freeWaitSlot s = some i ↔ LowestEmptyWaitSlot s i := by
  rw [freeWaitSlot, List.find?_eq_some_iff_getElem]
  simp only [LowestEmptyWaitSlot, Bool.not_eq_true', Bool.not_eq_false']
  constructor
  · rintro ⟨h1, n, hn, h2, h3⟩
    have hi : n = i.val := by simpa using congrArg Fin.val h2
    refine ⟨fun w hw e => ?_, fun j hj => ?_⟩
    · have := (waitOccupied_iff s i).2 ⟨w, hw, e⟩
      rw [h1] at this; cases this
    · have h4 := h3 j.val (by have := Fin.lt_def.1 hj; omega)
      simp at h4
      exact (waitOccupied_iff s j).1 h4
  · rintro ⟨h1, h2⟩
    refine ⟨?_, i.val, by simp, by simp, fun j hj => ?_⟩
    · cases h : waitOccupied s i with
      | false => rfl
      | true =>
        obtain ⟨w, hw, e⟩ := (waitOccupied_iff s i).1 h
        exact absurd e (h1 w hw)
    · have hj' : j < 24 := by omega
      have h3 := (waitOccupied_iff s ⟨j, hj'⟩).2 (h2 ⟨j, hj'⟩ (by simp [Fin.lt_def]; omega))
      simp [h3]

theorem freeWaitSlot_eq_none (s : State) : freeWaitSlot s = none ↔ ∀ i, ∃ w ∈ s.waiters, w.id.slot = i := by
  simp only [freeWaitSlot, List.find?_eq_none, List.mem_finRange, true_implies, Bool.not_eq_true, Bool.not_eq_false']
  exact forall_congr' fun i => waitOccupied_iff s i

/-! ### Grants, ends, queueing and departures -/

theorem endLease_held {s : State} {i : LeaseIdx} {l : Lease} (cause : EndCause) (h : s.lease i = .held l) :
    endLease cause i s =
      (s.setLease i (.free (some { gen := l.gen, cause, token := l.token, holder := l.holder }))).setAgent l.holder
        { s.agent l.holder with leaseCount := (s.agent l.holder).leaseCount - 1 } := by
  simp [endLease, h]

theorem endLease_free {s : State} {i : LeaseIdx} {m : Option LeaseMemory} (cause : EndCause) (h : s.lease i = .free m) :
    endLease cause i s = s := by
  simp [endLease, h]

/-- A grant places its record, and no other slot, and no field but these, changes (R2, R4, R12). -/
theorem placeLease_spec (c : Claim) (i : LeaseIdx) (s : State) :
    placeLease c i s = { s with
      leases := s.leases.set i { content := .held (leaseOfClaim c s.leases[i].nextGen s.tokenCounter), nextGen := s.leases[i].nextGen + 1 }
      agents := s.agents.set c.agent { s.agent c.agent with leaseCount := (s.agent c.agent).leaseCount + 1 }
      tokenCounter := (placeLease c i s).tokenCounter } := rfl

theorem placeLease_lease_self (c : Claim) (i : LeaseIdx) (s : State) :
    (placeLease c i s).lease i = .held (leaseOfClaim c s.leases[i].nextGen s.tokenCounter) := by
  simp [placeLease, State.lease]

theorem placeLease_lease_ne (c : Claim) (i j : LeaseIdx) (s : State) (h : j ≠ i) :
    (placeLease c i s).lease j = s.lease j := by
  have h2 : i.val ≠ j.val := fun e => h (Fin.ext e.symm)
  simp [placeLease, State.lease, h2]

theorem storeNotice_of_room {q : NoticeState} (n : Notice) (h : q.queue.length < 8) :
    storeNotice n q = { q with queue := q.queue ++ [{ seq := q.nextSeq, notice := n }], nextSeq := q.nextSeq + 1 } := by
  simp [storeNotice, h]

theorem storeNotice_of_full {q : NoticeState} (n : Notice) (h : 8 ≤ q.queue.length) :
    storeNotice n q = { q with
      nextSeq := q.nextSeq + 1, lost := true, lostCount := if q.lostCount < 255 then q.lostCount + 1 else 255 } := by
  have h2 : ¬q.queue.length < 8 := by omega
  simp [storeNotice, h2]

theorem storeNotice_mask (n : Notice) (q : NoticeState) : (storeNotice n q).mask = q.mask := by
  unfold storeNotice; dsimp only; split <;> rfl

theorem storeNotice_length (n : Notice) (q : NoticeState) (h : q.queue.length ≤ 8) :
    (storeNotice n q).queue.length ≤ 8 := by
  unfold storeNotice; dsimp only; split <;> simp <;> omega

/-- A departure changes the list, its slot's memory and its agent's wait count (R46). -/
theorem depart_spec (cause : WaitEnd) (w : Waiter) (s : State) :
    depart cause w s = { s with
      waiters := s.waiters.filter fun v => decide (v.id ≠ w.id)
      waitSlots := s.waitSlots.set w.id.slot
        { s.waitSlot w.id.slot with memory := some { gen := w.id.gen, cause, agent := w.claim.agent } }
      agents := s.agents.set w.claim.agent
        { s.agent w.claim.agent with waitCount := (s.agent w.claim.agent).waitCount - 1 } } := rfl

/-- Queueing changes the list, its slot, its agent's wait count and the arrival counter (R42). -/
theorem queueWaiter_spec (w : Waiter) (s : State) :
    queueWaiter w s = { s with
      waiters := insertWaiter w s.waiters
      waitSlots := s.waitSlots.set w.id.slot { memory := none, nextGen := w.id.gen + 1 }
      agents := s.agents.set w.claim.agent
        { s.agent w.claim.agent with waitCount := (s.agent w.claim.agent).waitCount + 1 }
      arrivals := s.arrivals + 1 } := rfl

theorem mem_insertWaiter (w v : Waiter) (ws : List Waiter) : v ∈ insertWaiter w ws ↔ v = w ∨ v ∈ ws := by
  unfold insertWaiter
  cases w.claim.priority with
  | normal => simp [or_comm]
  | urgent =>
    have h : v ∈ ws ↔ v ∈ ws.takeWhile isUrgent ++ ws.dropWhile isUrgent := by rw [List.takeWhile_append_dropWhile]
    rw [h]
    simp only [List.mem_append, List.mem_cons]
    constructor
    · rintro (h | h | h) <;> simp [h]
    · rintro (h | h | h) <;> simp [h]

/-! ### What a property needs to survive the operations that repeat -/

/-- A property that one step of a fold keeps, the fold keeps. -/
theorem foldl_keeps {α : Type} (P : State → Prop) (f : State → α → State) (h : ∀ s a, P s → P (f s a)) :
    ∀ (xs : List α) (s : State), P s → P (xs.foldl f s)
  | [], _, hs => hs
  | a :: xs, s, hs => foldl_keeps P f h xs (f s a) (h s a hs)

/-- A property that each grant and each rewriting of a blocked reason keeps, a walk keeps (R47). -/
theorem walk_keeps (P : State → Prop)
    (grant : ∀ s w i, P s → grantVerdict s w.claim (aheadOf w.id s.waiters) = .grantable i → P (grantWaiter w i s))
    (stay : ∀ s id b, P s → P (updateWaiter id (fun v => { v with blocked := b }) s)) :
    ∀ (ws : List Waiter) (s : State), P s → P (walk ws s).1
  | [], _, hs => hs
  | w :: ws, s, hs => by
    simp only [walk]
    refine walk_keeps P grant stay ws _ ?_
    unfold examine
    split
    · next i h => exact grant s w i hs h
    · next b h => exact stay s w.id b hs

theorem reexamine_keeps (P : State → Prop)
    (grant : ∀ s w i, P s → grantVerdict s w.claim (aheadOf w.id s.waiters) = .grantable i → P (grantWaiter w i s))
    (stay : ∀ s id b, P s → P (updateWaiter id (fun v => { v with blocked := b }) s)) (s : State) (h : P s) :
    P (reexamine s).1 :=
  walk_keeps P grant stay s.waiters s h

/-- A property that each end of a lease keeps, the end of all of an agent's leases keeps. -/
theorem endLeasesOf_keeps (P : State → Prop) (cause : EndCause) (h : ∀ s i, P s → P (endLease cause i s))
    (k : AgentNo) (s : State) (hs : P s) : P (endLeasesOf k cause s) :=
  foldl_keeps P _ (fun s i hs => h s i hs) _ s hs

/-- A property that each drop keeps, the drop of all of an agent's waiters keeps. -/
theorem dropWaitersOf_keeps (P : State → Prop) (h : ∀ s w, P s → P (depart .dropped w s)) (k : AgentNo) (s : State)
    (hs : P s) : P (dropWaitersOf k s) :=
  foldl_keeps P _ (fun s w hs => h s w hs) _ s hs

/-- A property that a change of an agent's state and fence cause, ends, drops, a cursor's closing and a post keep,
a fence keeps (R101). -/
theorem fence_keeps (P : State → Prop)
    (mark : ∀ s k c, P s → (s.agent k).state = .attached →
      P (s.setAgent k { s.agent k with state := .fenced, fenceCause := some c }))
    (ends : ∀ s i, P s → P (endLease .fenced i s)) (drops : ∀ s w, P s → P (depart .dropped w s))
    (closes : ∀ s k, P s → P (s.setCursor k none)) (posts : ∀ s k n, P s → P (postNotice k n s))
    (k : AgentNo) (cause : FenceCause) (s : State) (hs : P s) : P (fence k cause s) := by
  unfold fence
  split
  · next h =>
    exact posts _ _ _ (closes _ _ (dropWaitersOf_keeps P drops k _ (endLeasesOf_keeps P .fenced ends k _ (mark s k cause hs h))))
  · exact hs
  · exact hs

/-- A property that each recall keeps, the recall of a new waiter keeps (R95). -/
theorem recallFor_keeps (P : State → Prop) (w : Waiter) (h : ∀ s g p, P s → P (recallLease w g p s)) (s : State)
    (hs : P s) : P (recallFor w s).1 := by
  unfold recallFor
  split
  · exact foldl_keeps P _ (fun s p hs => h s _ p hs) _ s hs
  · exact hs

/-- A property that the countdown at one slot keeps, the lease countdown keeps (R88). -/
theorem leaseCountdown_keeps (P : State → Prop) (h : ∀ s i, P s → P (countdownSlot i s)) (s : State) (hs : P s) :
    P (leaseCountdown s) :=
  foldl_keeps P _ (fun s i hs => h s i hs) _ s hs

/-- A property that the countdown at one waiter keeps, the wait countdown keeps (R51). -/
theorem waitCountdown_keeps (P : State → Prop) (h : ∀ s w, P s → P (countdownWaiter w s)) (s : State) (hs : P s) :
    P (waitCountdown s) :=
  foldl_keeps P _ (fun s w hs => h s w hs) _ s hs

end Sys2Proof.Machine
end

