-- ==== Sys2Proof/Laws/PerInstr.lean ====
section
/-! SUPPORT. Statements about every command as a term, one lemma for each constructor. -/

namespace Sys2Proof.Laws

open Sys2Proof.Machine

/-- A term that WellFormed refuses is the end of a link transaction or an arrival of notices: of every other row, every
term is a command of the block. -/
def WellFormedness.Statement (c : Instr) : Prop :=
  wellFormed c = false →
    (∃ p phase, phase ≠ .opens ∧ c ∈ [Instr.send p phase, .collect p phase, .portReset p phase, .ignoredTransaction p phase])
      ∨ ∃ arrival, c = .noticePost arrival

theorem ne_opens_of_refused {kind : Option TransactionKind} {phase : LinkPhase} (h : closesAs kind phase = false) :
    phase ≠ .opens := by
  rintro rfl; cases h

theorem WellFormedness.acquire (k : AgentNo) : Statement (.acquire k) := nofun

theorem WellFormedness.cancel (k : AgentNo) : Statement (.cancel k) := nofun

theorem WellFormedness.renew (k : AgentNo) : Statement (.renew k) := nofun

theorem WellFormedness.trim (k : AgentNo) : Statement (.trim k) := nofun

theorem WellFormedness.downgrade (k : AgentNo) : Statement (.downgrade k) := nofun

theorem WellFormedness.upgrade (k : AgentNo) : Statement (.upgrade k) := nofun

theorem WellFormedness.release (k : AgentNo) : Statement (.release k) := nofun

theorem WellFormedness.setTick (k : AgentNo) : Statement (.setTick k) := nofun

theorem WellFormedness.forceRevoke (k : AgentNo) : Statement (.forceRevoke k) := nofun

theorem WellFormedness.evict (k : AgentNo) : Statement (.evict k) := nofun

theorem WellFormedness.attach (k : AgentNo) : Statement (.attach k) := nofun

theorem WellFormedness.detach (k : AgentNo) : Statement (.detach k) := nofun

theorem WellFormedness.resync (k : AgentNo) : Statement (.resync k) := nofun

theorem WellFormedness.setAccess (k : AgentNo) : Statement (.setAccess k) := nofun

theorem WellFormedness.configDomain (k : AgentNo) : Statement (.configDomain k) := nofun

theorem WellFormedness.domainInfo (k : AgentNo) : Statement (.domainInfo k) := nofun

theorem WellFormedness.noticeRead (k : AgentNo) : Statement (.noticeRead k) := nofun

theorem WellFormedness.noticeAck (k : AgentNo) : Statement (.noticeAck k) := nofun

theorem WellFormedness.setNoticeMask (k : AgentNo) : Statement (.setNoticeMask k) := nofun

theorem WellFormedness.query (k : AgentNo) : Statement (.query k) := nofun

theorem WellFormedness.queryNext (k : AgentNo) : Statement (.queryNext k) := nofun

theorem WellFormedness.status (p : PortNo) : Statement (.status p) := nofun

theorem WellFormedness.checkToken : Statement .checkToken := nofun

theorem WellFormedness.checkAgent : Statement .checkAgent := nofun

theorem WellFormedness.send (p : PortNo) (phase : LinkPhase) : Statement (.send p phase) := fun h =>
  .inl ⟨p, phase, ne_opens_of_refused h, by simp⟩

theorem WellFormedness.collect (p : PortNo) (phase : LinkPhase) : Statement (.collect p phase) := fun h =>
  .inl ⟨p, phase, ne_opens_of_refused h, by simp⟩

theorem WellFormedness.portReset (p : PortNo) (phase : LinkPhase) : Statement (.portReset p phase) := fun h =>
  .inl ⟨p, phase, ne_opens_of_refused h, by simp⟩

theorem WellFormedness.ignoredTransaction (p : PortNo) (phase : LinkPhase) : Statement (.ignoredTransaction p phase) := fun h =>
  .inl ⟨p, phase, ne_opens_of_refused h, by simp⟩

theorem WellFormedness.deviceReset : Statement .deviceReset := nofun

theorem WellFormedness.resetRelease (straps : BitVec 2) : Statement (.resetRelease straps) := nofun

theorem WellFormedness.intervalExpiry : Statement .intervalExpiry := nofun

theorem WellFormedness.tick : Statement .tick := nofun

theorem WellFormedness.leaseExpiry (i : LeaseIdx) : Statement (.leaseExpiry i) := nofun

theorem WellFormedness.graceLapse (i : LeaseIdx) : Statement (.graceLapse i) := nofun

theorem WellFormedness.waitLapse (i : WaitIdx) : Statement (.waitLapse i) := nofun

theorem WellFormedness.noticePost (arrival : List (AgentNo × Notice)) : Statement (.noticePost arrival) := fun _ =>
  .inr ⟨arrival, rfl⟩

theorem WellFormedness.unknownRequest (p : PortNo) : Statement (.unknownRequest p) := nofun

end Sys2Proof.Laws
end

