-- ==== Sys2Proof/Laws/Requests.lean ====
section
/-! SUPPORT. What taking a request does: where a request is ready and passes the checks, the command is its own
action and the reply (R116, R117, R170, R171); and what a property needs to survive any taking. -/

namespace Sys2Proof.Machine

/-- The common checks pass where PassesChecks says so (R116). -/
theorem commonRefusal_of_passes {s : State} {k : AgentNo} {kind : ReqKind} {r : Request}
    (h : PassesChecks s k kind r) : commonRefusal kind k r s = none := by
  obtain ⟨-, h1, h2, h3, h4⟩ := h
  have h5 : stateRefusal kind (s.agent k) = none := by
    unfold stateRefusal
    cases hs : (s.agent k).state <;> rw [hs] at h2 <;> cases kind <;> simp_all [stateAdmits, ReqKind.admittedFenced]
  have h6 : ¬(kind.skipsEpoch = false ∧ r.epoch ≠ (s.agent k).epoch) := by
    rintro ⟨ha, hb⟩
    rcases h3 with h3 | h3
    · cases kind <;> simp_all [ReqKind.skipsEpoch, SkipsEpoch]
    · exact hb h3
  have h7 : ¬(kind.isAdmin = true ∧ (s.accessOf k).admin = false) := by
    rintro ⟨ha, hb⟩
    have : (s.accessOf k).admin = true := h4 (by cases kind <;> simp_all [ReqKind.isAdmin, IsAdminKind])
    rw [hb] at this; cases this
  simp only [commonRefusal, h1, h5, h6, h7, if_false, ne_eq, not_true_eq_false]

theorem commonRefusal_congr (kind : ReqKind) (k : AgentNo) (r : Request) {s t : State} (h1 : s.agents = t.agents)
    (h2 : s.access = t.access) : commonRefusal kind k r s = commonRefusal kind k r t := by
  simp only [commonRefusal, State.agent, State.accessOf, h1, h2]; rfl

theorem engineRequest_of_ready {s : State} {p : PortNo} {r : Request} (h : EngineReady s p r) :
    engineRequest s p = some r := by
  obtain ⟨h1, h2, h3⟩ := h
  simp [engineRequest, h1, h2, h3, pendingRequest]

theorem ready_of_engineRequest {s : State} {p : PortNo} {r : Request} (h : engineRequest s p = some r) :
    EngineReady s p r := by
  unfold engineRequest at h
  split at h
  · cases h
  · next h2 =>
    simp only [not_or, Bool.not_eq_true, ne_eq, Decidable.not_not] at h2
    refine ⟨h2.1, ?_, h2.2⟩
    cases hs : (s.port p).slots <;> simp [hs, pendingRequest] at h ⊢
    exact h

theorem placeReply_eq_replied (p : PortNo) (r : Request) (a : Answer) (s : State) :
    placeReply p r a s = replied p r a.outcome a.body s := rfl

/-- An admitted engine request: the action runs with the port served, and its answer is placed. -/
theorem engineTakes_admitted {s : State} {k : AgentNo} {kind : ReqKind} {r : Request} (act : List Byte → Action)
    (h : Admitted s k kind r) :
    engineTakes kind k act s =
      let q := act r.body (s.serve (agentPort k))
      .next (replied (agentPort k) r q.2.outcome q.2.body q.1) := by
  have h2 := commonRefusal_of_passes h.2
  simp only [engineTakes, engineRequest_of_ready h.1, h.2.1, if_true, h2]
  rfl

/-- The same for the notice unit. -/
theorem noticeUnitTakes_admitted {s : State} {k : AgentNo} {kind : ReqKind} {r : Request} (act : List Byte → Action)
    (notice : IsNoticeRequest kind) (h : NoticeAdmitted s k kind r) :
    noticeUnitTakes kind k act s =
      let q := act r.body s
      .next (replied (agentPort k) r q.2.outcome q.2.body q.1) := by
  have h2 := commonRefusal_of_passes h.2
  have h3 : isNoticeKind r.kind = true := by
    rw [h.2.1]; revert notice; cases kind <;> simp [IsNoticeRequest] <;> decide
  have h4 : noticeRequest s k = some r := by
    simp [noticeRequest, h.1.1, h.1.2, pendingRequest, h3]
  simp only [noticeUnitTakes, h4, h.2.1, if_true, h2]
  rfl

/-- The same for a request on the check port (R117). -/
theorem checkPortTakes_admitted {s : State} {kind : ReqKind} {r : Request} (act : List Byte → Action)
    (h : CheckAdmitted s kind r) :
    checkPortTakes kind act s =
      let q := act r.body (s.serve checkPort)
      .next (replied checkPort r q.2.outcome q.2.body q.1) := by
  simp only [checkPortTakes, engineRequest_of_ready h.1, h.2.1, if_true, h.2.2, ne_eq, not_true_eq_false, if_false]
  rfl

/-- The engine's taking of a request answers a next state: the state as it was, or the reply to a refusal, or
the reply to the action. -/
theorem engineTakes_cases (kind : ReqKind) (k : AgentNo) (act : List Byte → Action) (s : State) :
    engineTakes kind k act s = .next s
      ∨ (∃ r a, EngineReady s (agentPort k) r ∧
        engineTakes kind k act s = .next (placeReply (agentPort k) r a (s.serve (agentPort k))))
      ∨ ∃ r, EngineReady s (agentPort k) r ∧ stateAdmits kind (s.agent k).state = true ∧
        engineTakes kind k act s = .next (answered (agentPort k) r (act r.body) (s.serve (agentPort k))) := by
  unfold engineTakes
  cases h : engineRequest s (agentPort k) with
  | none => exact .inl rfl
  | some r =>
    have h2 := ready_of_engineRequest h
    by_cases h3 : r.kind = kind.code
    · simp only [h3, if_true]
      cases h4 : commonRefusal kind k r s with
      | some a => exact .inr (.inl ⟨r, a, h2, rfl⟩)
      | none =>
        refine .inr (.inr ⟨r, h2, ?_, rfl⟩)
        unfold commonRefusal at h4
        split at h4
        · cases h4
        · cases h5 : stateRefusal kind (s.agent k) with
          | some a => simp [h5] at h4
          | none =>
            unfold stateRefusal at h5
            cases hs : (s.agent k).state <;> rw [hs] at h5 <;> cases kind <;>
              simp_all [stateAdmits, ReqKind.admittedFenced]
    · simp [h3]

theorem noticeUnitTakes_cases (kind : ReqKind) (k : AgentNo) (act : List Byte → Action) (s : State) :
    noticeUnitTakes kind k act s = .next s
      ∨ ∃ r a, noticeUnitTakes kind k act s = .next (answered (agentPort k) r a s) ∧ (a = act r.body ∨ ∃ x, a = refusing x) := by
  unfold noticeUnitTakes
  cases h : noticeRequest s k with
  | none => exact .inl rfl
  | some r =>
    by_cases h3 : r.kind = kind.code
    · simp only [h3, if_true]
      cases h4 : commonRefusal kind k r s with
      | some a => exact .inr ⟨r, refusing a, rfl, .inr ⟨a, rfl⟩⟩
      | none => exact .inr ⟨r, act r.body, rfl, .inl rfl⟩
    · simp [h3]

theorem checkPortTakes_cases (kind : ReqKind) (act : List Byte → Action) (s : State) :
    checkPortTakes kind act s = .next s
      ∨ ∃ r a, checkPortTakes kind act s = .next (answered checkPort r a (s.serve checkPort))
        ∧ (a = act r.body ∨ ∃ x, a = refusing x) := by
  unfold checkPortTakes
  cases h : engineRequest s checkPort with
  | none => exact .inl rfl
  | some r =>
    by_cases h3 : r.kind = kind.code
    · simp only [h3, if_true]
      by_cases h4 : r.body.length = kind.bodyLength
      · exact .inr ⟨r, act r.body, by simp [h4], .inl rfl⟩
      · exact .inr ⟨r, refusing (refuse .badField), by simp [h4], .inr ⟨_, rfl⟩⟩
    · simp [h3]

/-- A property that the arbiter's pointer and a placed reply do not touch, and that the action keeps, survives the
taking of an engine request. -/
theorem engineTakes_keeps (P : State → Prop) (kind : ReqKind) (k : AgentNo) (act : List Byte → Action)
    (serve : ∀ s p, P s → P (s.serve p)) (reply : ∀ s p r a, P s → P (placeReply p r a s))
    (acts : ∀ s body, P s → stateAdmits kind (s.agent k).state = true → P (act body s).1) {s t : State} (hs : P s)
    (h : engineTakes kind k act s = .next t) : P t := by
  rcases engineTakes_cases kind k act s with h2 | ⟨r, a, -, h2⟩ | ⟨r, -, ha, h2⟩ <;> rw [h2] at h <;> cases h
  · exact hs
  · exact reply _ _ _ _ (serve _ _ hs)
  · exact reply _ _ _ _ (acts _ _ (serve _ _ hs) ha)

theorem noticeUnitTakes_keeps (P : State → Prop) (kind : ReqKind) (k : AgentNo) (act : List Byte → Action)
    (reply : ∀ s p r a, P s → P (placeReply p r a s)) (acts : ∀ s body, P s → P (act body s).1) {s t : State}
    (hs : P s) (h : noticeUnitTakes kind k act s = .next t) : P t := by
  rcases noticeUnitTakes_cases kind k act s with h2 | ⟨r, a, h2, ha⟩ <;> rw [h2] at h <;> cases h
  · exact hs
  · rcases ha with rfl | ⟨x, rfl⟩
    · exact reply _ _ _ _ (acts _ _ hs)
    · exact reply _ _ _ _ hs

theorem checkPortTakes_keeps (P : State → Prop) (kind : ReqKind) (act : List Byte → Action)
    (serve : ∀ s p, P s → P (s.serve p)) (reply : ∀ s p r a, P s → P (placeReply p r a s))
    (acts : ∀ s body, P s → P (act body s).1) {s t : State} (hs : P s) (h : checkPortTakes kind act s = .next t) :
    P t := by
  rcases checkPortTakes_cases kind act s with h2 | ⟨r, a, h2, ha⟩ <;> rw [h2] at h <;> cases h
  · exact hs
  · rcases ha with rfl | ⟨x, rfl⟩
    · exact reply _ _ _ _ (acts _ _ (serve _ _ hs))
    · exact reply _ _ _ _ (serve _ _ hs)

/-! ### Events that no request starts -/

theorem whileTicking_running {s : State} (act : State → State) (h1 : s.rstAsserted = false) (h2 : s.tickPeriod ≠ 0) :
    whileTicking act s = .next (act s) := by
  simp [whileTicking, whileRunning, h1, h2]

/-- While RST# is asserted or the timer is stopped, nothing ticks, expires or lapses. -/
theorem whileTicking_stopped {s : State} (act : State → State) (h : s.rstAsserted = true ∨ s.tickPeriod = 0) :
    whileTicking act s = .next s := by
  rcases h with h | h <;> simp [whileTicking, whileRunning, h]

theorem whileTicking_keeps (P : State → Prop) (act : State → State) (acts : ∀ s, P s → P (act s)) {s t : State}
    (hs : P s) (h : whileTicking act s = .next t) : P t := by
  by_cases h2 : s.rstAsserted = true ∨ s.tickPeriod = 0
  · rw [whileTicking_stopped act h2] at h; cases h; exact hs
  · simp only [not_or, Bool.not_eq_true] at h2
    rw [whileTicking_running act h2.1 h2.2] at h; cases h; exact acts _ hs

/-- A property that the writing of a port does not touch, and that the kind's action keeps, survives a link
transaction. -/
theorem transact_keeps (P : State → Prop) (p : PortNo) (kind : Option TransactionKind)
    (act : List Bool → Opened → State → State) (phase : LinkPhase) (port : ∀ s q, P s → P (s.setPort p q))
    (acts : ∀ bits o s, P s → P (act bits o s)) (s : State) (hs : P s) : P (transact p kind act phase s) := by
  have falls : ∀ s, P s → P (selFalls p s) := by
    intro s hs
    simp only [selFalls]
    split
    · exact hs
    · exact port _ _ hs
  have rises : ∀ bits s, P s → P (selRises p (fun o t => if transactionKind bits = kind then act bits o t else t) s) := by
    intro bits s hs
    simp only [selRises]
    split
    · exact hs
    · cases (s.port p).opened with
      | none => exact port _ _ hs
      | some o =>
        by_cases h : transactionKind bits = kind
        · simp only [h, if_true]; exact acts _ _ _ (port _ _ hs)
        · simp only [h, if_false]; exact port _ _ hs
  cases phase with
  | opens => exact falls s hs
  | closes bits => exact rises bits s hs
  | whole bits => exact rises bits _ (falls s hs)

/-! ### Batches (R151, R153) -/

/-- A batch that finds its last match stops behind it. -/
theorem takeBatch_full {α : Type} (meets : α → Bool) (front : List α) (last : α) (rest : List α)
    (h : meets last = true) :
    ∀ n, (front.filter meets).length = n →
      takeBatch meets (n + 1) (front ++ last :: rest) = (front.filter meets ++ [last], rest) := by
  induction front with
  | nil => intro n hn; simp at hn; subst hn; simp [takeBatch, h]
  | cons a front ih =>
    intro n hn
    by_cases ha : meets a = true
    · simp [ha] at hn
      obtain ⟨m, rfl⟩ : ∃ m, n = m + 1 := ⟨n - 1, by omega⟩
      simp [takeBatch, ha, ih m (by omega)]
    · simp only [Bool.not_eq_true] at ha
      simp [ha] at hn
      simp [takeBatch, ha, ih n hn]

/-- A batch with fewer matches than it may take examines the whole list. -/
theorem takeBatch_short {α : Type} (meets : α → Bool) (xs : List α) :
    ∀ n, (xs.filter meets).length < n → takeBatch meets n xs = (xs.filter meets, []) := by
  induction xs with
  | nil => intro n _; simp [takeBatch]
  | cons a xs ih =>
    intro n hn
    obtain ⟨m, rfl⟩ : ∃ m, n = m + 1 := ⟨n - 1, by omega⟩
    by_cases ha : meets a = true
    · simp [ha] at hn
      have hm : m ≠ 0 := by omega
      simp [takeBatch, ha, ih m (by omega), hm]
    · simp only [Bool.not_eq_true] at ha
      simp [ha] at hn
      simp [takeBatch, ha, ih (m + 1) (by omega)]

end Sys2Proof.Machine
end

