-- ==== Sys2Proof/Tests/Slice0.lean ====
section
/-! SUPPORT. Tests: ill-formed terms that the check refuses, values the manual works out, and, for every
obligation with hypotheses, a state and operands that meet them, clause by clause at the clauses' boundaries. -/

namespace Sys2Proof.Tests

open Sys2Proof Sys2Proof.Machine

set_option Elab.async false

/-! ### Ill-formed terms -/

/-- Of the first bytes 53h, 43h, 52h, 54h and an incomplete one, each row closes with its own alone. -/
theorem test_wellFormed_ties_each_kind_byte_to_its_row :
    let own := fun bits => [Instr.send 0 (.closes bits), .collect 0 (.closes bits), .portReset 0 (.closes bits),
      .ignoredTransaction 0 (.closes bits)].map wellFormed
    let both := fun bits => [Instr.send 8 (.whole bits), .collect 8 (.whole bits), .portReset 8 (.whole bits),
      .ignoredTransaction 8 (.whole bits)].map wellFormed
    (∀ extra ∈ [[], [true]],
      own (linkBits [0x53] ++ extra) = [true, false, false, false] ∧ both (linkBits [0x53] ++ extra) = [true, false, false, false]
      ∧ own (linkBits [0x43] ++ extra) = [false, true, false, false] ∧ both (linkBits [0x43] ++ extra) = [false, true, false, false]
      ∧ own (linkBits [0x52] ++ extra) = [false, false, true, false] ∧ both (linkBits [0x52] ++ extra) = [false, false, true, false]
      ∧ own (linkBits [0x54] ++ extra) = [false, false, false, true] ∧ both (linkBits [0x54] ++ extra) = [false, false, false, true])
    ∧ own ((linkBits [0x53]).take 7) = [false, false, false, true] ∧ both [] = [false, false, false, true]
    ∧ ∀ c ∈ [Instr.send 0 .opens, .collect 0 .opens, .portReset 0 .opens, .ignoredTransaction 0 .opens], wellFormed c = true := by
  decide +kernel

theorem test_the_kind_byte_0x53_is_written_most_significant_bit_first :
    linkBits [0x53] = [false, true, false, true, false, false, true, true] := by decide +kernel

def leaseA : LeaseId := { slot := 0, gen := 1 }
def waitA : WaitId := { slot := 0, gen := 3 }

theorem test_wellFormed_refuses_an_empty_arrival : wellFormed (.noticePost []) = false := by decide +kernel

theorem test_wellFormed_refuses_notice_fields_out_of_bounds :
    ∀ n ∈ [Notice.granted waitA leaseA 0 .shared { base := 0, count := 1 } none,
        .granted waitA leaseA 1 .shared { base := 0, count := 0 } none,
        .granted waitA leaseA 1 .shared { base := 1048575, count := 2 } none,
        .warn leaseA 0, .warn leaseA 65536, .recall leaseA 0 3, .recall leaseA 65536 3,
        .fenced (.graceLapse leaseA) 64 0, .fenced (.graceLapse leaseA) 0 9, .fenced .evicted 65 0, .fenced .evicted 0 9],
      wellFormed (.noticePost [(2, n)]) = false ∧ wellFormed (.noticePost [(2, .warn leaseA 1), (2, n)]) = false := by
  decide +kernel

theorem test_wellFormed_admits_notice_fields_at_their_bounds :
    ∀ n ∈ [Notice.granted waitA leaseA 1 .shared { base := 1048575, count := 1 } none, .warn leaseA 65535,
        .recall leaseA 1 3, .fenced (.graceLapse leaseA) 63 8, .fenced .evicted 64 8],
      wellFormed (.noticePost [(2, n)]) = true := by decide +kernel

theorem test_no_table_word_spells_a_command : decodeTableWord 8 0x53 = none ∧ decodeTableWord 16 0xFFFF = none :=
  ⟨rfl, rfl⟩

/-! ### Values the manual works out -/

/-- Chapter 11.10's CRC example, byte by byte. -/
theorem test_crc_of_the_attach_frame :
    (List.range 5).map (fun n => crc8 (([0x0B, 0x01, 0, 0, 0] : List Byte).take (n + 1))) = [0x31, 0x90, 0xF9, 0xE1, 0xA9]
    ∧ requestFrame { kind := 0x0B, seqTag := 0x01, epoch := 0, body := [] } = [0x0B, 0x01, 0, 0, 0, 0xA9] := by
  decide +kernel

/-! ### A small state -/

/-- The part after reset, released, with the timer at its reset period. -/
def quiet : State := { State.reset with rstAsserted := false }

def lease0 : Lease :=
  { gen := 1, holder := 1, domain := 0, range := { base := 100, count := 10 }, mode := .exclusive, priority := .normal
    token := 1, duration := 50, remaining := 5, warn := 4, tag := some 7, state := .live, renewals := 255, origin := none }

def lease1 : Lease :=
  { lease0 with gen := 0, range := { base := 200, count := 10 }, mode := .shared, token := 2, remaining := 1, warn := 0, tag := none }

def lease2 : Lease :=
  { lease1 with holder := 2, range := { base := 205, count := 10 }, token := 3, state := .recalled, remaining := 2, origin := some waitA }

def lease3 : Lease :=
  { lease1 with holder := 4, range := { base := 300, count := 1 }, token := 4, remaining := 50 }

def claimFor (k : AgentNo) (base count : Nat) (mode : Mode) (priority : Priority) : Claim :=
  { agent := k, domain := 0, range := { base, count }, mode, priority, duration := 50, warn := 0, tag := none }

def waiterU : Waiter :=
  { id := { slot := 2, gen := 0 }, claim := claimFor 0 104 1 .exclusive .urgent, left := .bounded 2, arrival := 2
    blocked := .conflict leaseA 1 }

def waiter0 : Waiter :=
  { id := waitA, claim := claimFor 2 100 4 .exclusive .normal, left := .bounded 1, arrival := 0, blocked := .conflict leaseA 1 }

def waiter1 : Waiter :=
  { id := { slot := 1, gen := 0 }, claim := claimFor 3 102 2 .shared .normal, left := .unbounded, arrival := 1
    blocked := .conflict leaseA 1 }

def memoryOf (cause : WaitEnd) (k : AgentNo) : WaitSlot :=
  { memory := some { gen := 1, cause, agent := k }, nextGen := 2 }

/-- Agents 0 to 5 are ATTACHED with epoch 1, agent 6 is DETACHED and agent 7 FENCED. Slots 0, 1, 2 and 4 hold
leases, slot 3 remembers one. Three waiters wait, the first URGENT. Domain 0 ends at unit 1000, domain 1 at 2000. -/
def world : State :=
  { quiet with
    leases := Vector.ofFn fun i => match i.val with
      | 0 => { content := .held lease0, nextGen := 2 }
      | 1 => { content := .held lease1, nextGen := 1 }
      | 2 => { content := .held lease2, nextGen := 1 }
      | 3 => { content := .free (some { gen := 0, cause := .released, token := 9, holder := 1 }), nextGen := 1 }
      | 4 => { content := .held lease3, nextGen := 1 }
      | _ => { content := .free none, nextGen := 0 }
    tokenCounter := 5
    waiters := [waiterU, waiter0, waiter1]
    waitSlots := Vector.ofFn fun i => match i.val with
      | 0 => { memory := none, nextGen := 4 }
      | 1 => { memory := none, nextGen := 1 }
      | 2 => { memory := none, nextGen := 1 }
      | 3 => memoryOf (.granted { slot := 9, gen := 0 }) 2
      | 4 => memoryOf .lapsed 2
      | 5 => memoryOf .cancelled 2
      | 6 => memoryOf .dropped 2
      | _ => { memory := none, nextGen := 0 }
    arrivals := 3
    agents := Vector.ofFn fun k => match k.val with
      | 0 => { AgentRecord.reset with state := .attached, epoch := 1, waitCount := 1 }
      | 1 => { AgentRecord.reset with state := .attached, epoch := 1, leaseCount := 2 }
      | 2 => { AgentRecord.reset with state := .attached, epoch := 1, leaseCount := 1, waitCount := 1 }
      | 3 => { AgentRecord.reset with state := .attached, epoch := 1, waitCount := 1 }
      | 4 => { AgentRecord.reset with state := .attached, epoch := 1, leaseCount := 1 }
      | 5 => { AgentRecord.reset with state := .attached, epoch := 1 }
      | 6 => { AgentRecord.reset with epoch := 1 }
      | _ => { AgentRecord.reset with state := .fenced, epoch := 1, fenceCause := some .evicted }
    access := Vector.ofFn fun k => match k.val with
      | 3 => { mask := 1, exclusive := false, urgent := false, leaseLimit := 1, waitLimit := 1, admin := false }
      | 4 => { mask := 1, exclusive := false, urgent := true, leaseLimit := 1, waitLimit := 8, admin := false }
      | _ => AccessRecord.reset k
    domains := Vector.ofFn fun d => match d.val with
      | 0 => { bound := 1000, defaultDuration := 50, maxDuration := 100, defaultWarn := 3, recallGrace := 10, recallEnabled := true }
      | _ => { bound := 2000, defaultDuration := 50, maxDuration := 100, defaultWarn := 40, recallGrace := 10, recallEnabled := false }
    notices := Vector.ofFn fun k => match k.val with
      | 2 => { queue := [{ seq := 5, notice := .warn leaseA 4 }], nextSeq := 6, mask := 0x7F, lost := true, lostCount := 255 }
      | _ => NoticeState.reset }

/-- Every wait slot is occupied. -/
def crowded : State :=
  { world with waiters := (List.finRange 24).map fun i => { waiter0 with id := { slot := i, gen := 0 } } }

/-- Every lease slot is held. -/
def packed : State :=
  { world with leases := Vector.ofFn fun i : LeaseIdx =>
      { content := .held { lease1 with token := BitVec.ofNat 32 (i.val + 1) }, nextGen := 1 } }

def asked (kind : ReqKind) (body : List Byte) : Request := { kind := kind.code, seqTag := 0x5A, epoch := 1, body }

/-- State s with a request in port p's request slot. -/
def asking (s : State) (p : PortNo) (r : Request) : State := s.setPort p { s.port p with slots := .pending r }

/-- The world with a request of agent k waiting. -/
def wanted (k : AgentNo) (kind : ReqKind) (body : List Byte) : State := asking world (agentPort k) (asked kind body)

/-- The world with a request on the check port waiting. -/
def checked (kind : ReqKind) (body : List Byte) : State := asking world checkPort (asked kind body)

/-- A request of agent k in the world is admitted. -/
abbrev admitted (k : AgentNo) (kind : ReqKind) (body : List Byte) : Prop :=
  Admitted (wanted k kind body) k kind (asked kind body)

theorem forall_held {s : State} {P : LeaseIdx → Lease → Prop} (h : ∀ p ∈ liveLeases s, P p.1 p.2) :
    ∀ i l, s.lease i = .held l → P i l :=
  fun i l hl => h (i, l) ((mem_liveLeases s i l).2 hl)

theorem forall_held_pair {s : State} {P : LeaseIdx → LeaseIdx → Lease → Lease → Prop}
    (h : ∀ p ∈ liveLeases s, ∀ q ∈ liveLeases s, P p.1 q.1 p.2 q.2) :
    ∀ i j l m, s.lease i = .held l → s.lease j = .held m → P i j l m :=
  fun i j l m hl hm => h (i, l) ((mem_liveLeases s i l).2 hl) (j, m) ((mem_liveLeases s j m).2 hm)

/-! ### The laws hold of a state with leases and waiters, and it steps -/

theorem test_world_meets_the_table_laws : FirstLaw world ∧ FourthLaw world ∧ ThirdLaw world := by
  refine ⟨?_, ⟨?_, ?_, by decide +kernel⟩, by unfold ThirdLaw; decide +kernel⟩
  · exact forall_held_pair (P := fun i j li lj => i ≠ j → overlaps li.range lj.range = true → li.mode = .shared ∧ lj.mode = .shared)
      (by decide +kernel)
  · exact forall_held_pair (P := fun i j li lj => li.token = lj.token → i = j) (by decide +kernel)
  · exact forall_held (P := fun _ l => l.token ≠ 0 ∧ l.token ≠ world.tokenCounter) (by decide +kernel)

theorem test_world_meets_the_agent_laws : FifthLaw world ∧ SixthLaw world := by
  refine ⟨⟨?_, by unfold liesIn; decide +kernel⟩, ⟨?_, by decide +kernel⟩⟩
  · exact forall_held (P := fun _ l => liesIn world l.holder l.domain l.range) (by unfold liesIn; decide +kernel)
  · exact forall_held (P := fun _ l => (world.agent l.holder).state = .attached) (by decide +kernel)

theorem test_world_meets_the_timer_laws : SeventhLaw world ∧ DomainRecordsSound world := by
  refine ⟨⟨?_, by decide +kernel⟩, by unfold DomainRecordsSound; decide +kernel⟩
  exact forall_held (P := fun _ l => 1 ≤ l.remaining ∧ l.remaining ≤ l.duration
    ∧ l.duration ≤ (world.domain l.domain).maxDuration ∧ l.warn < l.duration
    ∧ (l.state = .recalled → l.remaining ≤ (world.domain l.domain).recallGrace)) (by decide +kernel)

theorem test_world_meets_the_list_laws :
    WaitSlotsDistinct world ∧ EighthLaw world ∧ NinthLaw world ∧ TenthLaw world ∧ EleventhLaw world := by
  unfold WaitSlotsDistinct EighthLaw NinthLaw ClassesInOrder ArrivalsInOrder TenthLaw EleventhLaw; decide +kernel

/-- The laws do not look at the queue, so the world with a tick in front meets them too, and steps. -/
theorem test_the_world_steps : ∃ t, step { world with pending := [.tick] } = .next t := ⟨_, rfl⟩

theorem test_premises_of_the_law_statements :
    let s := { world with pending := [.tick] }
    (∃ t, step s = .next t) ∧ FirstLaw s ∧ FourthLaw s ∧ ThirdLaw s ∧ FifthLaw s ∧ SixthLaw s ∧ SeventhLaw s
      ∧ DomainRecordsSound s ∧ WaitSlotsDistinct s ∧ EighthLaw s ∧ NinthLaw s ∧ TenthLaw s ∧ EleventhLaw s
      ∧ (∀ w ∈ s.waiters, age s w < 4294967295)
      ∧ ∀ c rest, s.pending = c :: rest → (∀ i, c ≠ .leaseExpiry i) ∧ (∀ i, c ≠ .graceLapse i) ∧ (∀ i, c ≠ .waitLapse i) := by
  refine ⟨⟨_, rfl⟩, test_world_meets_the_table_laws.1, test_world_meets_the_table_laws.2.1, test_world_meets_the_table_laws.2.2,
    test_world_meets_the_agent_laws.1, test_world_meets_the_agent_laws.2, test_world_meets_the_timer_laws.1,
    test_world_meets_the_timer_laws.2, test_world_meets_the_list_laws.1, test_world_meets_the_list_laws.2.1,
    test_world_meets_the_list_laws.2.2.1, test_world_meets_the_list_laws.2.2.2.1, test_world_meets_the_list_laws.2.2.2.2, by decide +kernel, ?_⟩
  rintro c rest h
  cases h
  simp

/-! ### Chapter 2.7, three of its steps -/

/-- The reply in port p's slot after an outcome. -/
def answerAt (p : PortNo) : Host.Outcome State Fault Refusal → Option Answer
  | .next s => match (s.port p).slots with
    | .answered r => some r.answer
    | .idle | .pending _ => none
  | .fault _ => none
  | .refused _ => none

/-- The three domains of the example, agents 0 to 3 ATTACHED. -/
def plant : State :=
  { quiet with
    agents := Vector.ofFn fun k => if k.val ≤ 3 then { AgentRecord.reset with state := .attached, epoch := 1 } else AgentRecord.reset
    domains := Vector.ofFn fun d => match d.val with
      | 0 => { DomainRecord.reset with bound := 131072 }
      | 1 => { bound := 131088, defaultDuration := 200, maxDuration := 1000, defaultWarn := 20, recallGrace := 10, recallEnabled := true }
      | _ => { DomainRecord.reset with bound := 131088 } }

def acquireOf (base count : Nat) (mode : Mode) (priority : Priority) (waitLimit : Nat) : Request :=
  asked .acquire (acquireBody
    { range := { base, count }, mode, priority, duration := 0, warn := 0, waitLimit, tag := none })

def exampleClaim (k : AgentNo) (base count : Nat) (mode : Mode) (priority : Priority) (duration : Nat) : Claim :=
  { agent := k, domain := 1, range := { base, count }, mode, priority, duration, warn := 20, tag := none }

/-- After step 8: lease 0/0 RECALLED, and waiters 1/0, 0/0 and 2/0 in the list. -/
def plantAfter8 : State :=
  { plant with
    leases := plant.leases.set 0
      { content := .held { leaseOfClaim (exampleClaim 1 131072 4 .exclusive .normal 200) 0 1 with
          state := .recalled, remaining := 10, origin := some { slot := 1, gen := 0 } }
        nextGen := 1 }
    tokenCounter := 2
    waiters :=
      [{ id := { slot := 1, gen := 0 }, claim := exampleClaim 0 131072 1 .exclusive .urgent 200, left := .unbounded
         arrival := 1, blocked := .conflict { slot := 0, gen := 0 } 1 },
       { id := { slot := 0, gen := 0 }, claim := exampleClaim 2 131074 4 .exclusive .normal 500, left := .bounded 100
         arrival := 0, blocked := .conflict { slot := 0, gen := 0 } 1 },
       { id := { slot := 2, gen := 0 }, claim := exampleClaim 3 131076 2 .shared .normal 200, left := .bounded 50
         arrival := 2, blocked := .earlierWaiter { slot := 0, gen := 0 } 2 }] }

/-- Step 1: GRANTED with lease 0/0, token 1 and duration 200. -/
theorem test_example_step_1_grants :
    answerAt 1 (exec (.acquire 1) (asking plant 1 (acquireOf 131072 4 .exclusive .normal 0)))
      = some { outcome := .granted, body := [0, 0, 0, 0, 0, 1, 0, 200] } := by decide +kernel

/-- Step 5, asked after step 8: BUSY (EARLIER_WAITER) with blocker wait 0/0 of agent 2. -/
theorem test_example_step_5_is_busy :
    answerAt 3 (exec (.acquire 3) (asking plantAfter8 3 (acquireOf 131076 2 .shared .normal 0)))
      = some { outcome := .busy, body := [1, 0, 0, 2] } := by decide +kernel

/-- Step 9: the RELEASE of lease 0/0, token 1, reports 2 waiters granted. -/
theorem test_example_step_9_releases :
    answerAt 1 (exec (.release 1) (asking plantAfter8 1 (asked .release [0, 0])))
      = some { outcome := .ok, body := [0, 0, 0, 0, 0, 1, 2] } := by decide +kernel

/-! ### Premises: the block, reset, ports -/

theorem test_premises_of_EmptyQueueStepIsOneRefclkCycle :
    State.reset.pending = [] ∧ State.reset.rstAsserted = true
    ∧ (let s := { quiet with tickPeriod := 0 }; s.pending = [] ∧ s.tickPeriod = 0)
    ∧ (let s := { quiet with refPhase := 6 }
      s.pending = [] ∧ s.rstAsserted = false ∧ s.tickPeriod ≠ 0 ∧ s.refPhase + 1 < 8 * (s.clksel.toNat + 1))
    ∧ (let s := { quiet with refPhase := 7, elapsed := 998 }
      8 * (s.clksel.toNat + 1) ≤ s.refPhase + 1 ∧ s.elapsed + 1 < s.tickPeriod)
    ∧ (let s := { quiet with refPhase := 31, clksel := 3, elapsed := 999 }
      8 * (s.clksel.toNat + 1) ≤ s.refPhase + 1 ∧ s.tickPeriod ≤ s.elapsed + 1) := by decide +kernel

theorem test_premises_of_ResetReleaseStartsThePart :
    State.reset.rstAsserted = true ∧ quiet.rstAsserted = false ∧ ∀ p, (quiet.port p).selLow = false := by decide +kernel

def someRequest : Request := asked .attach []
def someReply : Reply := { kind := 0x0B, seqTag := 0x5A, answer := { outcome := .ok, body := [0, 1] } }

/-- Port p of a released part, with its slots as given and a transaction open. -/
def opening (p : PortNo) (slots : PortSlots) (reply : Option (List Byte)) : State :=
  quiet.setPort p { quiet.port p with slots, selLow := true, opened := some { status := 0, reply } }

/-- SEL# of port p is low with no transaction open. -/
def stale (p : PortNo) : State := quiet.setPort p { quiet.port p with selLow := true }

theorem test_premises_of_TransactionsOpenAndClose :
    ((stale 8).port 8).selLow = true ∧ ((stale 8).port 8).opened = none
    ∧ (let s := opening 8 .idle none; (s.port 8).selLow = true ∧ wellFormed (.send 8 (.closes (linkBits [0x43]))) = false)
    ∧ (State.reset.port 0).selLow = false ∧ State.reset.rstAsserted = true
    ∧ (quiet.port 0).selLow = false ∧ quiet.rstAsserted = false ∧ (quiet.port 0).slots = .idle
    ∧ (let s := quiet.setPort 8 { quiet.port 8 with slots := .answered someReply }
      (s.port 8).selLow = false ∧ s.rstAsserted = false ∧ (s.port 8).slots = .answered someReply)
    ∧ (∃ t, exec (.collect 0 (.closes [])) quiet = .next t)
    ∧ ∃ t, exec (.send 0 .opens) quiet = .next t := ⟨rfl, rfl, ⟨rfl, by decide +kernel⟩, rfl, rfl, rfl, rfl, rfl, ⟨rfl, rfl, rfl⟩, ⟨_, rfl⟩, _, rfl⟩

/-- The judgments of R166 at their boundaries: 5 bytes, one byte short, a length of 33, one byte over, a wrong
CRC, and a good frame. -/
theorem test_premises_of_SendJudgesAndStoresFrames :
    (let s := opening 0 .idle none;
      (s.port 0).selLow = true ∧ (s.port 0).opened = some { status := 0, reply := none } ∧ (s.port 0).slots = .idle)
    ∧ ((opening 8 (.pending someRequest) none).port 8).slots ≠ .idle
    ∧ judgeFrame [0x0B, 1, 0, 0, 0] = .runt
    ∧ judgeFrame [0x0A, 1, 0, 0, 1, 2] = .runt
    ∧ judgeFrame ([0x0A, 1, 0, 0, 33] ++ List.replicate 34 0) = .long
    ∧ judgeFrame [0x0B, 1, 0, 0, 0, 0xA9, 0] = .long
    ∧ judgeFrame [0x0B, 1, 0, 0, 0, 0xA8] = .crc
    ∧ judgeFrame [0x0B, 1, 0, 0, 0, 0xA9] = .good { kind := 0x0B, seqTag := 1, epoch := 0, body := [] } := by
  decide +kernel

/-- The premises of the same clauses, as the statement spells them. -/
theorem test_sent_bytes_meet_each_judgment :
    let bytes := fun frame : List Byte => wholeBytes (linkBits frame)
    let len := fun frame : List Byte => ((bytes frame).getD 4 0).toNat
    let runt := fun frame => (bytes frame).length < 6 ∨ (bytes frame).length < 6 + len frame
    let long := fun frame => 32 < len frame ∨ 6 + len frame < (bytes frame).length
    let crc := fun frame => (bytes frame).getD (5 + len frame) 0 ≠ crc8 ((bytes frame).take (5 + len frame))
    (∀ frame ∈ [([0x0B, 1, 0, 0, 0] : List Byte), [0x0A, 1, 0, 0, 1, 2]], runt frame)
    ∧ (∀ frame ∈ [([0x0A, 1, 0, 0, 33] ++ List.replicate 34 0 : List Byte), [0x0B, 1, 0, 0, 0, 0xA9, 0]],
      ¬runt frame ∧ long frame)
    ∧ (¬runt [0x0B, 1, 0, 0, 0, 0xA8] ∧ ¬long [0x0B, 1, 0, 0, 0, 0xA8] ∧ crc [0x0B, 1, 0, 0, 0, 0xA8])
    ∧ (¬runt [0x0B, 1, 0, 0, 0, 0xA9] ∧ ¬long [0x0B, 1, 0, 0, 0, 0xA9] ∧ ¬crc [0x0B, 1, 0, 0, 0, 0xA9]) := by
  decide +kernel

theorem test_premises_of_RequestFrameReadsBack :
    ({ kind := 1, seqTag := 2, epoch := 3, body := List.replicate 32 4 } : Request).body.length ≤ 32
    ∧ (List.replicate 7 true).length < 8 := by decide +kernel

theorem test_premises_of_CollectShiftsTheReply :
    (let s := opening 0 .idle none; (s.port 0).selLow = true ∧ (s.port 0).opened = some { status := 0, reply := none })
    ∧ (let s := opening 8 (.answered someReply) (some (replyFrame someReply))
      (s.port 8).selLow = true ∧ (s.port 8).opened = some { status := 0, reply := some (replyFrame someReply) })
    ∧ 8 * (replyFrame someReply).length ≤ 56 ∧ 55 < 8 * (replyFrame someReply).length := by decide +kernel

theorem test_premises_of_PortReset_and_IgnoredTransaction :
    ∀ p : PortNo, ((opening p .idle none).port p).selLow = true
      ∧ ((opening p .idle none).port p).opened = some { status := 0, reply := none }
      ∧ (linkBits [0x54] ++ [true] = linkBits [0x54] ++ [true] ∧ (0x54 : Byte) ∉ [(0x53 : Byte), 0x43, 0x52])
      ∧ ((linkBits [0x52]).take 7).length < 8 := by decide +kernel

theorem test_premises_of_StatusByteShowsThePort : checkPort = 8 ∧ ∃ k, (7 : PortNo) = agentPort k := ⟨rfl, 7, rfl⟩

/-! ### Premises: intake and the common checks -/

theorem test_premises_of_UnknownKindsAreRefused :
    (∀ kind ∈ [(0x15 : Byte), 0x19, 0, 0xFF],
      let r : Request := { asked .status [] with kind := kind }
      EngineReady (asking quiet checkPort r) checkPort r ∧ r.kind ∉ [(0x16 : Byte), 0x17, 0x18])
    ∧ (∀ kind ∈ [(0x17 : Byte), 0xFF, 0],
      let r : Request := { asked .status [] with kind := kind }
      EngineReady (asking quiet 7 r) 7 r ∧ (7 : PortNo) ≠ checkPort ∧ (r.kind = 0 ∨ 0x16 < r.kind))
    ∧ ∀ kind ∈ [ReqKind.status, .checkToken, .checkAgent],
      let r := asked kind (List.replicate (kind.bodyLength + 1) 0)
      EngineReady (asking quiet checkPort r) checkPort r ∧ r.kind = kind.code ∧ r.body.length ≠ kind.bodyLength := by
  decide +kernel

/-- Every kind an agent may send meets the premises of the first clause, with a body one byte too long. -/
theorem test_premises_of_CommonChecksInOrder_length :
    ∀ kind ∈ [ReqKind.acquire, .cancel, .renew, .trim, .downgrade, .upgrade, .release, .setTick, .forceRevoke, .evict,
        .attach, .detach, .resync, .setAccess, .configDomain, .domainInfo, .noticeRead, .noticeAck, .setNoticeMask,
        .query, .queryNext, .status],
      let r := asked kind (List.replicate (kind.bodyLength + 1) 0)
      let s := asking world (agentPort 7) r
      (commandOf 7 kind).isSome = true ∧ r.kind = kind.code
        ∧ (if IsNoticeRequest kind then NoticeReady s 7 r else EngineReady s (agentPort 7) r)
        ∧ r.body.length ≠ kind.bodyLength := by decide +kernel

theorem test_premises_of_CommonChecksInOrder_state_epoch_and_right :
    let r := fun kind : ReqKind => asked kind (List.replicate kind.bodyLength 0)
    let s := fun (k : AgentNo) kind => asking world (agentPort k) (r kind)
    let ready := fun (k : AgentNo) kind => EngineReady (s k kind) (agentPort k) (r kind)
      ∧ (r kind).kind = kind.code ∧ (r kind).body.length = kind.bodyLength
    (ready 6 .acquire ∧ stateAdmits .acquire ((s 6 .acquire).agent 6).state ≠ true ∧ ((s 6 .acquire).agent 6).state = .detached)
    ∧ (ready 7 .acquire ∧ stateAdmits .acquire ((s 7 .acquire).agent 7).state ≠ true ∧ ((s 7 .acquire).agent 7).state = .fenced)
    ∧ (ready 5 .attach ∧ stateAdmits .attach ((s 5 .attach).agent 5).state ≠ true ∧ ((s 5 .attach).agent 5).state = .attached)
    ∧ (ready 5 .resync ∧ stateAdmits .resync ((s 5 .resync).agent 5).state ≠ true ∧ ((s 5 .resync).agent 5).state = .attached)
    ∧ (let q : Request := { r .detach with epoch := 2 }
      EngineReady (asking world 5 q) 5 q ∧ stateAdmits .detach ((asking world 5 q).agent 5).state = true
        ∧ ¬(SkipsEpoch .detach ∨ q.epoch = ((asking world 5 q).agent 5).epoch))
    ∧ (ready 5 .setTick ∧ stateAdmits .setTick ((s 5 .setTick).agent 5).state = true
      ∧ (r .setTick).epoch = ((s 5 .setTick).agent 5).epoch ∧ IsAdminKind .setTick ∧ ((s 5 .setTick).accessOf 5).admin = false)
    ∧ (let n := asking world 6 (r .noticeRead)
      NoticeReady n 6 (r .noticeRead) ∧ IsNoticeRequest .noticeRead ∧ stateAdmits .noticeRead (n.agent 6).state ≠ true) := by
  decide +kernel

/-! ### Premises: ACQUIRE -/

theorem takenIff (s : State) (i : LeaseIdx) (c : Claim) :
    (∃ l, s.lease i = .held l ∧ conflicts l.range l.mode c.range c.mode = true)
      ↔ ((conflictSearch s c.range c.mode).any fun p => decide (p.1 = i)) = true := by
  simp only [List.any_eq_true, decide_eq_true_eq]
  constructor
  · rintro ⟨l, h1, h2⟩; exact ⟨(i, l), (mem_conflictSearch s c.range c.mode i l).2 ⟨h1, h2⟩, rfl⟩
  · rintro ⟨⟨j, l⟩, h, rfl⟩; exact ⟨l, (mem_conflictSearch s c.range c.mode j l).1 h⟩

/-- A claim on units 150 to 159 is free of leases; on 209 it meets the leases of slots 1 and 2. -/
theorem test_premises_of_GrantConditionsInOrder_conflict :
    let c := claimFor 5 209 1 .exclusive .normal
    let taken := fun i => ∃ l, world.lease i = .held l ∧ conflicts l.range l.mode c.range c.mode = true
    world.lease 1 = .held lease1 ∧ taken 1 ∧ ∀ j < (1 : LeaseIdx), ¬taken j := by
  refine ⟨by decide +kernel, (takenIff _ _ _).2 (by decide +kernel), fun j hj h => ?_⟩
  have h2 := (takenIff _ _ _).1 h
  clear h; revert j; decide +kernel

theorem test_premises_of_GrantConditionsInOrder_rest :
    let c := claimFor 5 150 10 .exclusive .normal
    let blocker : Waiter := { waiter0 with claim := claimFor 2 150 1 .shared .normal }
    let barred := fun w : Waiter => conflicts w.claim.range w.claim.mode c.range c.mode = true
    (∀ i, ¬∃ l, world.lease i = .held l ∧ conflicts l.range l.mode c.range c.mode = true)
    ∧ ([waiterU, blocker] = [waiterU] ++ blocker :: [] ∧ (∀ v ∈ [waiterU], ¬barred v) ∧ barred blocker)
    ∧ (∀ w ∈ [waiterU], ¬barred w)
    ∧ (world.accessOf 4).leaseLimit ≤ (world.agent 4).leaseCount
    ∧ (world.agent 5).leaseCount < (world.accessOf 5).leaseLimit
    ∧ LowestFreeSlot world 3
    ∧ (∀ i, ¬∃ l, packed.lease i = .held l ∧ conflicts l.range l.mode c.range c.mode = true)
    ∧ (packed.agent 5).leaseCount < (packed.accessOf 5).leaseLimit
    ∧ ∀ i, ∃ l, packed.lease i = .held l := by
  refine ⟨fun i h => ?_, by decide +kernel, by decide +kernel, by decide +kernel, by decide +kernel,
    (freeLeaseSlot_eq_some _ _).1 (by decide +kernel), fun i h => ?_, by decide +kernel,
    (freeLeaseSlot_eq_none _).1 (by decide +kernel)⟩
  all_goals
    have h2 := (takenIff _ _ (claimFor 5 150 10 .exclusive .normal)).1 h
    clear h; revert i; decide +kernel

def fieldsOf (base count : Nat) (mode : Mode) (priority : Priority) (duration warn waitLimit : Nat) : AcquireFields :=
  { range := { base, count }, mode, priority, duration, warn, waitLimit, tag := none }

/-- The world with an ACQUIRE of agent k waiting. -/
def acquiring (k : AgentNo) (f : AcquireFields) : State := wanted k .acquire (acquireBody f)

abbrev acquires (k : AgentNo) (f : AcquireFields) : Prop :=
  AcquireAdmitted (acquiring k f) k (asked .acquire (acquireBody f)) f

theorem noSelf {s : State} {c : Claim} (h : (selfConflicts s c) = []) : NoSelfConflict s c := by
  intro j l hl hk
  rw [selfConflicts, conflictSearch, List.filter_filter, search_eq_nil] at h
  have := h j l hl
  simpa [hk] using this

theorem test_premises_of_AcquireGrants :
    ∀ f ∈ [fieldsOf 999 1 .exclusive .urgent 0 0 0, fieldsOf 0 100 .exclusive .normal 100 99 65535],
      let s := acquiring 0 f
      let c := requestedClaim s 0 f 0
      acquires 0 f ∧ ClaimFits s c ∧ (∀ j l, s.lease j = .held l → conflicts l.range l.mode c.range c.mode = false)
        ∧ (∀ w ∈ aheadIfQueued s c, conflicts w.claim.range w.claim.mode c.range c.mode = false)
        ∧ (s.agent 0).leaseCount < (s.accessOf 0).leaseLimit ∧ LowestFreeSlot s 3 := by
  intro f hf
  have h : ∀ f ∈ [fieldsOf 999 1 .exclusive .urgent 0 0 0, fieldsOf 0 100 .exclusive .normal 100 99 65535],
      acquires 0 f ∧ ClaimFits (acquiring 0 f) (requestedClaim (acquiring 0 f) 0 f 0)
        ∧ (∀ p ∈ liveLeases (acquiring 0 f), conflicts p.2.range p.2.mode (requestedClaim (acquiring 0 f) 0 f 0).range
          (requestedClaim (acquiring 0 f) 0 f 0).mode = false)
        ∧ (∀ w ∈ aheadIfQueued (acquiring 0 f) (requestedClaim (acquiring 0 f) 0 f 0), conflicts w.claim.range w.claim.mode
          (requestedClaim (acquiring 0 f) 0 f 0).range (requestedClaim (acquiring 0 f) 0 f 0).mode = false)
        ∧ ((acquiring 0 f).agent 0).leaseCount < ((acquiring 0 f).accessOf 0).leaseLimit
        ∧ freeLeaseSlot (acquiring 0 f) = some 3 := by decide +kernel
  obtain ⟨h1, h2, h3, h4, h5, h6⟩ := h f hf
  exact ⟨h1, h2, fun j l hl => h3 (j, l) ((mem_liveLeases _ j l).2 hl), h4, h5, (freeLeaseSlot_eq_some _ _).1 h6⟩

theorem test_premises_of_TokenCounterSkipsHeldTokens :
    world.lease 4 = .held lease3 ∧ lease3.token ≠ 0 ∧ world.lease 0 = .held lease0 ∧ lease0.token ≠ 0 := by decide +kernel

/-- A NORMAL claim behind lease 0, and an URGENT one in domain 1, where recall is off, behind a lease placed there. -/
theorem test_premises_of_AcquireQueues :
    (let f := fieldsOf 109 1 .shared .normal 0 0 1
      let s := acquiring 5 f
      let c := requestedClaim s 5 f 0
      acquires 5 f ∧ ClaimFits s c ∧ NoSelfConflict s c ∧ ClassesInOrder s
        ∧ grantVerdict s c (aheadIfQueued s c) = .blocked (.conflict leaseA 1) ∧ f.waitLimit ≠ 0
        ∧ (s.agent 5).waitCount < (s.accessOf 5).waitLimit ∧ LowestEmptyWaitSlot s 3 ∧ c.priority = .normal)
    ∧ (let f := fieldsOf 1000 1000 .exclusive .urgent 0 0 65535
      let s := (acquiring 0 f).setLease 5 (.held { lease3 with domain := 1, range := { base := 1999, count := 1 } })
      let c := requestedClaim s 0 f 1
      AcquireAdmitted s 0 (asked .acquire (acquireBody f)) f ∧ ClaimFits s c ∧ NoSelfConflict s c ∧ ClassesInOrder s
        ∧ grantVerdict s c (aheadIfQueued s c) = .blocked (.conflict { slot := 5, gen := 0 } 4) ∧ f.waitLimit ≠ 0
        ∧ (s.agent 0).waitCount < (s.accessOf 0).waitLimit ∧ LowestEmptyWaitSlot s 3
        ∧ (s.domain 1).recallEnabled = false) := by
  refine ⟨⟨by decide +kernel, by decide +kernel, noSelf (by decide +kernel), ?_, by decide +kernel⟩,
    ⟨by decide +kernel, by decide +kernel, noSelf (by decide +kernel), ?_, by decide +kernel⟩⟩ <;>
    unfold ClassesInOrder <;> decide +kernel

/-- An URGENT claim over leases 0 (LIVE, NORMAL, of agent 1) and 1, with the tightest and the longest wait. -/
theorem test_premises_of_UrgentAcquireRecalls :
    ∀ limit ∈ [1, 65535],
      let f := fieldsOf 100 105 .exclusive .urgent 0 0 limit
      let s := acquiring 0 f
      let c := requestedClaim s 0 f 0
      acquires 0 f ∧ ClaimFits s c ∧ NoSelfConflict s c ∧ ClassesInOrder s
        ∧ grantVerdict s c (aheadIfQueued s c) = .blocked (.conflict leaseA 1) ∧ f.waitLimit ≠ 0
        ∧ (s.agent 0).waitCount < (s.accessOf 0).waitLimit ∧ LowestEmptyWaitSlot s 3 ∧ c.priority = .urgent
        ∧ (s.domain 0).recallEnabled = true ∧ (recallTargets s (newWaiter c limit (.conflict leaseA 1) 3 s)).length = 2 := by
  intro limit h
  have e : limit = 1 ∨ limit = 65535 := by simpa using h
  rcases e with rfl | rfl <;>
    refine ⟨by decide +kernel, by decide +kernel, noSelf (by decide +kernel), by unfold ClassesInOrder; decide +kernel, by decide +kernel⟩

/-- A count of 0, a range one unit too long, and each code one past its last. -/
theorem test_premises_of_AcquireRefusesInOrder_fields :
    let body := fun (base count : Nat) (mode priority tagged : Byte) =>
      rangeBytes { base, count } ++ [mode, priority, 0, 0, 0, 0, 0, 0, tagged, 0, 0]
    (∀ b ∈ [body 0 0 0 0 0, body 1048575 2 0 0 0, body 0 1 2 0 0, body 0 1 0 2 0, body 0 1 0 0 2], admitted 5 .acquire b)
    ∧ natOfBytes ((body 0 0 0 0 0).take 5) % 1048576 = 0
    ∧ 1048576 < natOfBytes ((body 1048575 2 0 0 0).take 5) / 1048576 + natOfBytes ((body 1048575 2 0 0 0).take 5) % 1048576
    ∧ 1 < ((body 0 1 2 0 0).getD 5 0).toNat ∧ 1 < ((body 0 1 0 2 0).getD 6 0).toNat ∧ 1 < ((body 0 1 0 0 2).getD 13 0).toNat := by
  decide +kernel

/-- The domain checks, each reached with those before it passed. -/
theorem test_premises_of_AcquireRefusesInOrder_checks :
    (let f := fieldsOf 2000 1 .shared .normal 0 0 0;
      acquires 5 f ∧ ∀ e, ((acquiring 5 f).domain e).bound ≤ f.range.base)
    ∧ (let f := fieldsOf 999 2 .shared .normal 0 0 0
      acquires 5 f ∧ f.range.base < ((acquiring 5 f).domain 0).bound ∧ ¬rangeEnd f.range ≤ ((acquiring 5 f).domain 0).bound)
    ∧ (let f := fieldsOf 1000 1 .shared .normal 0 0 0
      acquires 3 f ∧ (∀ e < (1 : DomainNo), ((acquiring 3 f).domain e).bound ≤ f.range.base)
        ∧ f.range.base < ((acquiring 3 f).domain 1).bound ∧ rangeEnd f.range ≤ ((acquiring 3 f).domain 1).bound
        ∧ ¬((acquiring 3 f).accessOf 3).mask.getLsbD 1 = true)
    ∧ (let f := fieldsOf 0 1 .exclusive .urgent 0 0 0
      acquires 3 f ∧ ((acquiring 3 f).accessOf 3).mask.getLsbD 0 = true ∧ f.mode = .exclusive
        ∧ ((acquiring 3 f).accessOf 3).exclusive = false)
    ∧ (let f := fieldsOf 0 1 .exclusive .urgent 101 0 0
      acquires 5 f ∧ ((acquiring 5 f).accessOf 5).exclusive = true ∧ f.priority = .urgent
        ∧ ((acquiring 5 f).accessOf 5).urgent = false)
    ∧ (let f := fieldsOf 0 1 .shared .normal 101 101 0
      acquires 5 f ∧ ¬(requestedClaim (acquiring 5 f) 5 f 0).duration ≤ ((acquiring 5 f).domain 0).maxDuration)
    ∧ (let f := fieldsOf 0 1 .shared .normal 0 50 0
      let c := requestedClaim (acquiring 5 f) 5 f 0
      acquires 5 f ∧ c.duration ≤ ((acquiring 5 f).domain 0).maxDuration ∧ c.duration ≤ c.warn) := by
  refine ⟨?_, ?_, ?_, ?_, ?_, ?_, ?_⟩
  all_goals decide +kernel

/-- SELF_CONFLICT, BUSY, WAIT_LIMIT and WAITLIST_FULL, on claims that pass the checks before. -/
theorem test_premises_of_AcquireRefusesInOrder_settling :
    (let f := fieldsOf 109 92 .exclusive .normal 0 0 0
      let s := acquiring 1 f
      let c := requestedClaim s 1 f 0
      acquires 1 f ∧ ClaimFits s c ∧ s.lease 0 = .held lease0 ∧ lease0.holder = 1
        ∧ conflicts lease0.range lease0.mode c.range c.mode = true ∧ ∀ i, ¬i < (0 : LeaseIdx))
    ∧ (∀ limit ∈ [0, 1],
      let f := fieldsOf 109 1 .shared .normal 0 0 limit
      let s := acquiring 3 f
      let c := requestedClaim s 3 f 0
      acquires 3 f ∧ ClaimFits s c ∧ selfConflicts s c = []
        ∧ grantVerdict s c (aheadIfQueued s c) = .blocked (.conflict leaseA 1)
        ∧ (s.accessOf 3).waitLimit ≤ (s.agent 3).waitCount)
    ∧ (let f := fieldsOf 109 1 .shared .normal 0 0 1
      let s := asking crowded 5 (asked .acquire (acquireBody f))
      let c := requestedClaim s 5 f 0
      AcquireAdmitted s 5 (asked .acquire (acquireBody f)) f ∧ ClaimFits s c ∧ selfConflicts s c = []
        ∧ grantVerdict s c (aheadIfQueued s c) = .blocked (.conflict leaseA 1)
        ∧ (s.agent 5).waitCount < (s.accessOf 5).waitLimit ∧ ∀ i : WaitIdx, ∃ w ∈ s.waiters, w.id.slot = i) := by
  refine ⟨?_, ?_, ?_⟩
  all_goals decide +kernel

/-! ### Premises: requests that name a lease -/

def idOf (slot : LeaseIdx) (gen : Gen) : LeaseId := { slot, gen }

theorem test_premises_of_LeaseIdRefusals :
    ∀ kind ∈ [ReqKind.renew, .trim, .downgrade, .upgrade, .release], (commandOf 5 kind).isSome = true
      ∧ ∀ id ∈ [idOf 3 0, idOf 3 1, idOf 63 0, idOf 0 2, idOf 0 1],
        let rest := List.replicate (kind.bodyLength - 2) 0
        admitted 5 kind (leaseIdBytes id ++ rest)
        ∧ (let s := wanted 5 kind (leaseIdBytes id ++ rest)
          s.lease 3 = .free (some { gen := 0, cause := .released, token := 9, holder := 1 }) ∧ s.lease 63 = .free none
            ∧ s.lease 0 = .held lease0 ∧ lease0.gen ≠ 2 ∧ lease0.gen = 1 ∧ lease0.holder ≠ 5) := by decide +kernel

/-- RENEW of lease 2 (RECALLED), and of lease 0 with a duration one too long, one too short, and the least and
largest that pass; 0 asks for the present one. -/
theorem test_premises_of_RenewReloads :
    (admitted 2 .renew (leaseIdBytes (idOf 2 0) ++ num2 5)
      ∧ OwnLease (wanted 2 .renew (leaseIdBytes (idOf 2 0) ++ num2 5)) 2 (idOf 2 0) lease2 ∧ lease2.state = .recalled)
    ∧ (∀ asked ∈ [101, 4, 100, 5, 0],
      let s := wanted 1 .renew (leaseIdBytes leaseA ++ num2 asked)
      admitted 1 .renew (leaseIdBytes leaseA ++ num2 asked) ∧ OwnLease s 1 leaseA lease0 ∧ lease0.state = .live
        ∧ (s.domain lease0.domain).maxDuration = 100 ∧ asked ≤ 65535)
    ∧ lease0.warn = 4 ∧ lease0.duration = 50 := by decide +kernel

/-- TRIM of a LIVE and a RECALLED lease: empty, one unit before, one unit past, and the last unit alone. -/
theorem test_premises_of_TrimNarrows :
    ∀ new ∈ [({ base := 100, count := 0 } : Range), { base := 99, count := 2 }, { base := 109, count := 2 }, { base := 109, count := 1 }],
      let body := leaseIdBytes leaseA ++ rangeBytes new
      admitted 1 .trim body ∧ OwnLease (wanted 1 .trim body) 1 leaseA lease0 ∧ new.base < unitSpace ∧ new.count < unitSpace
        ∧ (new.count ≠ 0 ∧ 100 ≤ new.base ∧ new.base + new.count ≤ 110 ↔ new = { base := 109, count := 1 }) := by
  decide +kernel

theorem test_premises_of_Downgrade_and_Release :
    (∀ kind ∈ [ReqKind.downgrade, .release], admitted 1 kind (leaseIdBytes leaseA)
      ∧ OwnLease (wanted 1 kind (leaseIdBytes leaseA)) 1 leaseA lease0)
    ∧ lease0.mode = .exclusive
    ∧ admitted 2 .downgrade (leaseIdBytes (idOf 2 0))
    ∧ OwnLease (wanted 2 .downgrade (leaseIdBytes (idOf 2 0))) 2 (idOf 2 0) lease2 ∧ lease2.mode = .shared := by decide +kernel

/-- UPGRADE of leases 2 (RECALLED), 0 (EXCLUSIVE), 3 in slot 4 (no right), 1 (overlapped by lease 2 from slot 2), and
of lease 1 where slot 2 is free. -/
theorem test_premises_of_UpgradeStrengthens :
    (∀ c ∈ [((2 : AgentNo), idOf 2 0, lease2), (1, leaseA, lease0), (4, idOf 4 0, lease3), (1, idOf 1 0, lease1)],
      admitted c.1 .upgrade (leaseIdBytes c.2.1)
        ∧ OwnLease (wanted c.1 .upgrade (leaseIdBytes c.2.1)) c.1 c.2.1 c.2.2)
    ∧ lease2.state = .recalled ∧ (lease0.state = .live ∧ lease0.mode = .exclusive)
    ∧ (lease3.state = .live ∧ lease3.mode = .shared ∧ (world.accessOf 4).exclusive = false)
    ∧ (lease1.state = .live ∧ lease1.mode = .shared ∧ (world.accessOf 1).exclusive = true)
    ∧ (upgradeBlockers (wanted 1 .upgrade (leaseIdBytes (idOf 1 0))) 1 lease1 = [(2, lease2)])
    ∧ (let s := (wanted 1 .upgrade (leaseIdBytes (idOf 1 0))).setLease 2 (.free none)
      Admitted s 1 .upgrade (asked .upgrade (leaseIdBytes (idOf 1 0))) ∧ OwnLease s 1 (idOf 1 0) lease1
        ∧ upgradeBlockers s 1 lease1 = []) := by decide +kernel

theorem test_premises_of_ForceRevokeEndsTheLease :
    ∀ id ∈ [idOf 3 0, idOf 3 1, idOf 63 0, idOf 0 2, idOf 0 1],
      let s := wanted 0 .forceRevoke (leaseIdBytes id)
      admitted 0 .forceRevoke (leaseIdBytes id)
        ∧ s.lease 3 = .free (some { gen := 0, cause := .released, token := 9, holder := 1 }) ∧ s.lease 63 = .free none
        ∧ s.lease 0 = .held lease0 ∧ lease0.gen ≠ 2 ∧ lease0.gen = 1 := by decide +kernel

/-! ### Premises: agents, access rights, CANCEL and domains -/

theorem test_premises_of_Fence_Detach_and_Evict :
    (world.agent 2).state = .attached ∧ WaitSlotsDistinct (wanted 2 .detach [])
    ∧ admitted 2 .detach [] ∧ admitted 7 .detach []
    ∧ (∀ n ∈ [8, 255], admitted 0 .evict (num1 n) ∧ 8 ≤ n ∧ n < 256)
    ∧ ∀ j : AgentNo, admitted 0 .evict (num1 j.val)
      ∧ ((wanted 0 .evict (num1 6)).agent 6).state = .detached ∧ ((wanted 0 .evict (num1 7)).agent 7).state = .fenced
      ∧ ((wanted 0 .evict (num1 2)).agent 2).state = .attached := by
  refine ⟨?_, ?_, ?_, ?_, ?_, ?_⟩
  all_goals (try unfold WaitSlotsDistinct); decide +kernel

theorem test_premises_of_AttachAndResyncStartAnEpoch : admitted 6 .attach [] ∧ admitted 7 .resync [] := by decide +kernel

/-- SET_ACCESS and CONFIG_DOMAIN with each field of check 6 one past its range, or one below it. -/
theorem test_premises_of_the_field_checks_of_SetAccess_and_ConfigDomain :
    (∀ b ∈ [([8, 0, 0, 0, 0, 1, 1, 0] : List Byte), [7, 0, 0, 2, 0, 1, 1, 0], [7, 0, 0, 1, 2, 1, 1, 0], [7, 0, 0, 1, 1, 0, 1, 0],
        [7, 0, 0, 1, 1, 65, 1, 0], [7, 0, 0, 1, 1, 64, 0, 0], [7, 0, 0, 1, 1, 64, 9, 0], [7, 0, 0, 1, 1, 64, 8, 2]],
      admitted 0 .setAccess b
        ∧ (let code := fun n => (b.getD n 0).toNat
          7 < code 0 ∨ 1 < code 3 ∨ 1 < code 4 ∨ code 5 = 0 ∨ 64 < code 5 ∨ code 6 = 0 ∨ 8 < code 6 ∨ 1 < code 7))
    ∧ ∀ b ∈ [([16] ++ domainBytes (world.domain 0) : List Byte), [15] ++ (domainBytes (world.domain 0)).take 11 ++ [2]],
      admitted 0 .configDomain b ∧ (15 < (b.getD 0 0).toNat ∨ 1 < (b.getD 12 0).toNat) := by decide +kernel

/-- SET_ACCESS on agent 2, which holds a lease and an EXCLUSIVE waiter in domain 0. -/
theorem test_premises_of_SetAccessReplacesTheRecord :
    let old := world.accessOf 2
    let send := fun (j : AgentNo) (a : AccessRecord) => admitted 0 .setAccess (num1 j.val ++ accessBytes a)
      ∧ 1 ≤ a.leaseLimit ∧ a.leaseLimit ≤ 64 ∧ 1 ≤ a.waitLimit ∧ a.waitLimit ≤ 8
    (send 1 { old with leaseLimit := 1 } ∧ ¬((world.agent 1).leaseCount ≤ 1))
    ∧ (send 2 { old with mask := 0xFFFE, leaseLimit := 1, waitLimit := 1 } ∧ (world.agent 2).leaseCount ≤ 1
      ∧ (world.agent 2).waitCount ≤ 1 ∧ waiter0 ∈ world.waiters ∧ waiter0.claim.agent = 2 ∧ waiter0.claim.domain = 0
      ∧ (0xFFFE : BitVec 16).getLsbD 0 = false)
    ∧ (send 2 { old with exclusive := false } ∧ old.exclusive = true ∧ waiter0.claim.mode = .exclusive
      ∧ ∀ d : DomainNo, old.mask.getLsbD d.val = true)
    ∧ (send 2 { old with leaseLimit := 16 } ∧ 16 ≤ old.leaseLimit)
    ∧ (send 2 { old with leaseLimit := 17 } ∧ old.leaseLimit < 17) := by
  refine ⟨?_, ?_, ?_, ?_, ?_⟩
  all_goals decide +kernel

def waitIdAt (slot : WaitIdx) (gen : Gen) : WaitId := { slot, gen }

/-- CANCEL of a slot above 23, of a waiter by another agent and by its own, of another generation of an occupied
slot, of an empty slot without and with a memory, and of every memory. -/
theorem test_premises_of_CancelRemovesTheWaiter :
    (∀ n ∈ [24 * 1024, 65535], admitted 2 .cancel (num2 n) ∧ 24 * 1024 ≤ n ∧ n < 65536)
    ∧ (∀ id ∈ [waitA, waitIdAt 1 0, waitIdAt 0 2, waitIdAt 23 0, waitIdAt 3 0, waitIdAt 3 1, waitIdAt 4 1, waitIdAt 5 1, waitIdAt 6 1],
      admitted 2 .cancel (waitIdBytes id) ∧ WaitSlotsDistinct (wanted 2 .cancel (waitIdBytes id)))
    ∧ admitted 5 .cancel (waitIdBytes (waitIdAt 3 1))
    ∧ (let s := wanted 2 .cancel (waitIdBytes waitA)
      waiter0 ∈ s.waiters ∧ waiter0.id = waitA ∧ waiter0.claim.agent = 2
        ∧ waiter1 ∈ s.waiters ∧ waiter1.id = waitIdAt 1 0 ∧ waiter1.claim.agent ≠ 2
        ∧ (∃ w ∈ s.waiters, w.id.slot = 0 ∧ w.id.gen ≠ 2)
        ∧ (∀ i ∈ [(23 : WaitIdx), 3, 4, 5, 6], ∀ w ∈ s.waiters, w.id.slot ≠ i)
        ∧ (s.waitSlot 23).memory = none
        ∧ (s.waitSlot 3).memory = some { gen := 1, cause := .granted (idOf 9 0), agent := 2 }
        ∧ (s.waitSlot 4).memory = some { gen := 1, cause := .lapsed, agent := 2 }
        ∧ (s.waitSlot 5).memory = some { gen := 1, cause := .cancelled, agent := 2 }
        ∧ (s.waitSlot 6).memory = some { gen := 1, cause := .dropped, agent := 2 }) := by
  refine ⟨?_, ?_, ?_, ?_⟩
  all_goals (try unfold WaitSlotsDistinct); decide +kernel

/-- CONFIG_DOMAIN with a bad relation, a bound past the next domain's, a busy domain, a busy next domain, and
records that pass. -/
theorem test_premises_of_ConfigDomainReplacesTheRecord :
    let d1 := world.domain 1
    let send := fun (d : DomainNo) (new : DomainRecord) => admitted 0 .configDomain (num1 d.val ++ domainBytes new)
      ∧ new.bound < 16777216 ∧ new.defaultDuration ≤ 65535 ∧ new.maxDuration ≤ 65535 ∧ new.defaultWarn ≤ 65535
      ∧ new.recallGrace ≤ 65535
    let idle := fun e => leasesIn world e = 0 ∧ waitersIn world e = 0
    (send 1 { d1 with defaultWarn := d1.defaultDuration })
    ∧ (send 1 { d1 with bound := 2001 } ∧ 2001 ≤ 1048576 ∧ (world.domain 2).bound < 2001)
    ∧ (send 1 { d1 with bound := 999 } ∧ 999 < (world.domain 0).bound)
    ∧ (send 0 { d1 with bound := 2000 } ∧ ¬idle 0)
    ∧ (let new := { d1 with bound := 1000 }
      let s := (wanted 0 .configDomain (num1 1 ++ domainBytes new)).setLease 5 (.held { lease3 with domain := 2 })
      Admitted s 0 .configDomain (asked .configDomain (num1 1 ++ domainBytes new)) ∧ domainIdle s 1 = true
        ∧ new.bound ≠ (s.domain 1).bound ∧ leasesIn s 2 = 1)
    ∧ (send 1 d1 ∧ idle 1) ∧ (send 1 { d1 with bound := 1000 } ∧ idle 2)
    ∧ (send 15 { d1 with bound := 1048576, recallEnabled := true } ∧ idle 15) := by
  refine ⟨?_, ?_, ?_, ?_, ?_, ?_, ?_, ?_⟩
  all_goals decide +kernel

/-! ### Premises: notices, queries, the check port -/

theorem test_premises_of_Notices :
    (NoticeState.reset.queue.length < 8 ∧ 8 ≤ (List.replicate 8 ({ seq := 0, notice := .warn leaseA 4 } : NoticeRecord)).length)
    ∧ State.reset.rstAsserted = true ∧ world.rstAsserted = false
    ∧ (∀ k ∈ [(2 : AgentNo), 7], ∀ c ∈ [(ReqKind.noticeRead, ([] : List Byte)), (.noticeAck, [5]), (.noticeAck, [6]),
        (.setNoticeMask, [0x80]), (.setNoticeMask, [0x7F]), (.setNoticeMask, [0])],
      NoticeAdmitted (wanted k c.1 c.2) k c.1 (asked c.1 c.2))
    ∧ (world.notice 2).queue = { seq := 5, notice := .warn leaseA 4 } :: [] ∧ (world.notice 7).queue = []
    ∧ (0x80 : Byte).getLsbD 7 = true ∧ (0x7F : Byte).getLsbD 7 = false := by
  refine ⟨?_, ?_, ?_, ?_, ?_, ?_⟩
  all_goals decide +kernel

theorem test_premises_of_StatusAndDomainInfoReport :
    (∀ k : AgentNo, admitted k .status []) ∧ CheckAdmitted (checked .status []) .status (asked .status [])
    ∧ (∀ n ∈ [16, 255], admitted 5 .domainInfo (num1 n)) ∧ ∀ d : DomainNo, admitted 5 .domainInfo (num1 d.val) := by
  decide +kernel

/-- A part whose slots i, of those that f admits, hold leases of agent 1 on one unit each. -/
def filled (f : LeaseIdx → Bool) : State :=
  { world with leases := Vector.ofFn fun i : LeaseIdx =>
      { content := if f i then .held { lease1 with range := { base := i.val, count := 1 } } else .free none, nextGen := 1 } }

def hitsOf (s : State) (f : Filter) (start : LeaseIdx) : List LeaseIdx :=
  (List.finRange 64).filter fun i => decide (start ≤ i) &&
    (match s.lease i, f with
      | .held l, .byRange range => overlaps l.range range
      | .held l, .byAgent j => decide (l.holder = j)
      | _, _ => false)

/-- A QUERY with each field one past its range, and a QUERY_NEXT with the cursor closed. -/
theorem test_premises_of_the_refusals_of_queries :
    (∀ b ∈ [([3, 0] ++ rangeBytes { base := 0, count := 1 } : List Byte), [0, 0] ++ rangeBytes { base := 5, count := 0 },
        [0, 0] ++ rangeBytes { base := 1048575, count := 2 }, [1, 8] ++ rangeBytes { base := 0, count := 1 },
        [1, 0xFF] ++ rangeBytes { base := 0, count := 1 }, [2, 0xFE] ++ rangeBytes { base := 0, count := 1 }],
      admitted 5 .query b
        ∧ (let filter := (b.getD 0 0).toNat
          let agent := (b.getD 1 0).toNat
          let base := natOfBytes (b.drop 2) / 1048576
          let count := natOfBytes (b.drop 2) % 1048576
          2 < filter ∨ filter = 0 ∧ (count = 0 ∨ 1048576 < base + count) ∨ filter = 1 ∧ 7 < agent
            ∨ filter = 2 ∧ 7 < agent ∧ agent ≠ 255))
    ∧ admitted 5 .queryNext [] ∧ (wanted 5 .queryNext []).cursor 5 = none := by decide +kernel

/-- The premises of the three clauses, for a QUERY by agent, a QUERY by range and a QUERY_NEXT from slot 60. -/
theorem test_premises_of_LeaseQueriesScanTheTable :
    let full := filled fun _ => true
    let next := (asking full 5 (asked .queryNext [])).setCursor 5 (some { filter := .byAgent 1, position := .atSlot 60 })
    (Admitted (asking full 5 (asked .query ([1] ++ num1 1 ++ rangeBytes { base := 0, count := 0 }))) 5 .query
        (asked .query ([1] ++ num1 1 ++ rangeBytes { base := 0, count := 0 }))
      ∧ (hitsOf full (.byAgent 1) 0)[3]? = some 3)
    ∧ (Admitted (asking full 5 (asked .query ([0, 0xFF] ++ rangeBytes { base := 61, count := 3 }))) 5 .query
        (asked .query ([0, 0xFF] ++ rangeBytes { base := 61, count := 3 }))
      ∧ RangeSound { base := 61, count := 3 } ∧ (hitsOf full (.byRange { base := 61, count := 3 }) 0)[3]? = none)
    ∧ (Admitted next 5 .queryNext (asked .queryNext []) ∧ next.cursor 5 = some { filter := .byAgent 1, position := .atSlot 60 }
      ∧ (hitsOf next (.byAgent 1) 60)[3]? = some 63) := by decide +kernel

/-- The head of a crowded list, its last four waiters after a kept one, that list from the head under a cursor, fewer
than four, and what is left after a kept waiter that has left. -/
theorem test_premises_of_WaiterQueriesWalkTheList :
    let ws := crowded.waiters
    let body : List Byte := [2, 0xFF] ++ rangeBytes { base := 0, count := 0 }
    let query := asking crowded 5 (asked .query body)
    let kept : KeptWaiter := { id := waitIdAt 19 0, arrival := 0, priority := .normal }
    let next := (asking crowded 5 (asked .queryNext [])).setCursor 5 (some { filter := .waits none, position := .afterWaiter kept })
    let gone : KeptWaiter := { id := waitIdAt 20 0, arrival := 1, priority := .normal }
    let resumed := (wanted 5 .queryNext []).setCursor 5 (some { filter := .waits none, position := .afterWaiter gone })
    let headed := (wanted 5 .queryNext []).setCursor 5 (some { filter := .waits none, position := .atHead })
    Admitted query 5 .query (asked .query body) ∧ Admitted next 5 .queryNext (asked .queryNext [])
    ∧ (ws = ws.take 3 ++ { waiter0 with id := waitIdAt 3 0 } :: ws.drop 4 ∧ ws.drop 4 ≠ [] ∧ (ws.take 3).length = 3)
    ∧ (next.cursor 5 = some { filter := .waits none, position := .afterWaiter kept } ∧ resumeAfter next kept = ws.drop 20
      ∧ ws.drop 20 = (ws.drop 20).take 3 ++ [{ waiter0 with id := waitIdAt 23 0 }] ∧ ((ws.drop 20).take 3).length = 3)
    ∧ (Admitted resumed 5 .queryNext (asked .queryNext [])
      ∧ resumed.cursor 5 = some { filter := .waits none, position := .afterWaiter gone } ∧ resumeAfter resumed gone = [waiter1])
    ∧ (Admitted headed 5 .queryNext (asked .queryNext []) ∧ headed.cursor 5 = some { filter := .waits none, position := .atHead })
    ∧ (world.waiters.filter fun w => decide (w.claim.agent = 2)).length < 4
    ∧ Admitted (wanted 5 .query ([2] ++ num1 2 ++ rangeBytes { base := 0, count := 0 })) 5 .query
      (asked .query ([2] ++ num1 2 ++ rangeBytes { base := 0, count := 0 })) := by
  refine ⟨?_, ?_, ?_, ?_, ?_, ?_, ?_, ?_⟩
  all_goals decide +kernel

def laterThan (kept : KeptWaiter) (w : Waiter) : Prop :=
  w.claim.priority = kept.priority ∧ (w.arrival - kept.arrival).toNat < 2147483648

def goneWaiter (arrival : Arrival) (priority : Priority) : KeptWaiter := { id := waitIdAt 20 0, arrival, priority }

/-- A kept waiter still in the list, and one that has left: one with a later one in its class, a NORMAL one with none, an URGENT one with none. -/
theorem test_premises_of_WaiterCursorResumePoint :
    (world.waiters = [waiterU] ++ waiter0 :: [waiter1] ∧ (keep waiter0).id = waiter0.id
      ∧ (keep waiter0).arrival = waiter0.arrival ∧ waiterU.id ≠ waiter0.id)
    ∧ (∀ w ∈ world.waiters, w.id ≠ waitIdAt 20 0)
    ∧ (world.waiters = [waiterU, waiter0] ++ waiter1 :: [] ∧ (∀ v ∈ [waiterU, waiter0], ¬laterThan (goneWaiter 1 .normal) v)
      ∧ laterThan (goneWaiter 1 .normal) waiter1)
    ∧ (∀ w ∈ world.waiters, ¬laterThan (goneWaiter 2 .normal) w)
    ∧ (∀ w ∈ world.waiters, ¬laterThan (goneWaiter 3 .urgent) w) ∧ ClassesInOrder world := by
  unfold ClassesInOrder laterThan
  refine ⟨?_, ?_, ?_, ?_, ?_, ?_⟩
  all_goals decide +kernel

theorem test_later_arrivals_at_the_boundary :
    laterArrival 0x80000002 2 = false ∧ laterArrival 0x80000003 2 = true ∧ laterArrival 2 2 = true
      ∧ laterArrival 3 2 = false := by decide +kernel

/-- CHECK_TOKEN with a unit or an access out of range, with token 0, which no lease carries, and on lease 0's and
lease 1's tokens at and past their last units. -/
theorem test_premises_of_CheckTokenAnswers :
    let body := fun (token : Token) (unit access : Nat) => tokenBytes token ++ num3 unit ++ num1 access
    (∀ c ∈ [((1 : Token), 1048576, 0), (1, 109, 2), (0, 1048575, 1), (1, 110, 0), (2, 209, 1), (1, 109, 1)],
      CheckAdmitted (checked .checkToken (body c.1 c.2.1 c.2.2)) .checkToken (asked .checkToken (body c.1 c.2.1 c.2.2)))
    ∧ (∀ i j l m, world.lease i = .held l → world.lease j = .held m → l.token = 1 → m.token = 1 → i = j)
    ∧ (∀ i l, world.lease i = .held l → l.token ≠ 0)
    ∧ world.lease 0 = .held lease0 ∧ lease0.token = 1 ∧ world.lease 1 = .held lease1 ∧ lease1.token = 2
    ∧ ¬(110 < lease0.range.base + lease0.range.count) ∧ 109 < lease0.range.base + lease0.range.count
    ∧ 209 < lease1.range.base + lease1.range.count ∧ lease0.mode = .exclusive ∧ ¬lease1.mode = .exclusive := by
  refine ⟨by decide +kernel, ?_, ?_, by decide +kernel⟩
  · exact forall_held_pair (P := fun i j l m => l.token = 1 → m.token = 1 → i = j) (by decide +kernel)
  · exact forall_held (P := fun _ l => l.token ≠ 0) (by decide +kernel)

theorem test_premises_of_CheckAgentAnswers :
    let body := fun agent unit access => num1 agent ++ num3 unit ++ num1 access
    (∀ c ∈ [(8, 0, 0), (7, 1048576, 0), (1, 209, 2), (6, 209, 0), (7, 209, 0), (1, 209, 0), (1, 209, 1), (1, 210, 0)],
      CheckAdmitted (checked .checkAgent (body c.1 c.2.1 c.2.2)) .checkAgent (asked .checkAgent (body c.1 c.2.1 c.2.2)))
    ∧ (world.agent 6).state = .detached ∧ (world.agent 7).state = .fenced ∧ (world.agent 1).state = .attached
    ∧ (coveringLeases world 1 209 .read).head? = some (1, lease1)
    ∧ coveringLeases world 1 209 .write = [] ∧ coveringLeases world 1 210 .read = [] := by decide +kernel

/-! ### Premises: the timer and re-examination -/

theorem test_premises_of_SetTick_Interval_and_Tick :
    admitted 0 .setTick (num2 0) ∧ admitted 0 .setTick (num2 65535)
    ∧ State.reset.rstAsserted = true ∧ ({ quiet with tickPeriod := 0 } : State).tickPeriod = 0
    ∧ quiet.rstAsserted = false ∧ quiet.tickPeriod ≠ 0 ∧ quiet.pendingTicks = 0
    ∧ ({ world with pendingTicks := 255 } : State).pendingTicks ≠ 0 ∧ ({ world with pendingTicks := 1 } : State).pendingTicks ≠ 0 := by
  decide +kernel

/-- In the world, lease 1 expires, lease 0 reaches its warn mark and lease 2, RECALLED, is not yet at its last tick;
waiter 0 lapses. -/
theorem test_premises_of_the_countdowns :
    (∀ i l, world.lease i = .held l → l.state = .recalled → 1 < l.remaining) ∧ WaitSlotsDistinct world
    ∧ (world.lease 0 = .held lease0 ∧ 1 < lease0.remaining ∧ lease0.warn ≠ 0 ∧ lease0.remaining - 1 = lease0.warn)
    ∧ (world.lease 1 = .held lease1 ∧ lease1.remaining ≤ 1) ∧ world.lease 63 = .free none
    ∧ (waiter0 ∈ world.waiters ∧ waiter0.left = .bounded 1) ∧ (waiter1 ∈ world.waiters ∧ waiter1.left = .unbounded)
    ∧ waiterU ∈ world.waiters ∧ waiterU.left = .bounded 2 := by
  refine ⟨?_, by unfold WaitSlotsDistinct; decide +kernel, by decide +kernel⟩
  exact forall_held (P := fun _ l => l.state = .recalled → 1 < l.remaining) (by decide +kernel)

/-- A LIVE lease one above its warn mark, at 2, at 1, and a RECALLED one at 2 and at 1. -/
theorem test_premises_of_the_four_cases_of_a_slot :
    (world.lease 0 = .held lease0 ∧ 1 < lease0.remaining ∧ lease0.state = .live ∧ lease0.warn ≠ 0 ∧ lease0.remaining - 1 = lease0.warn)
    ∧ (world.lease 4 = .held lease3 ∧ 1 < lease3.remaining ∧ lease3.warn = 0)
    ∧ (world.lease 1 = .held lease1 ∧ lease1.remaining ≤ 1 ∧ lease1.state = .live)
    ∧ (world.lease 2 = .held lease2 ∧ 1 < lease2.remaining ∧ lease2.state ≠ .live)
    ∧ (let l := { lease2 with remaining := 1 }
      (world.setLease 2 (.held l)).lease 2 = .held l ∧ l.remaining ≤ 1 ∧ l.state = .recalled)
    ∧ world.lease 3 = .free (some { gen := 0, cause := .released, token := 9, holder := 1 }) := by decide +kernel

/-- A grace lapse in a tick: agent 2's lease in slot 2 ends REVOKED, and its lease in slot 5, at 1 itself, ends FENCED. -/
theorem test_a_grace_lapse_fences_in_the_midst_of_the_countdown :
    let s := (world.setLease 2 (.held { lease2 with remaining := 1 })).setLease 5 (.held { lease1 with holder := 2, token := 6 })
    let t := leaseCountdown s
    t.lease 2 = .free (some { gen := 0, cause := .revoked, token := 3, holder := 2 })
      ∧ t.lease 5 = .free (some { gen := 0, cause := .fenced, token := 6, holder := 2 })
      ∧ (t.agent 2).state = .fenced := by decide +kernel

theorem test_premises_of_ExpiryAndLapsesEndOneRecord :
    (({ world with tickPeriod := 0 } : State).tickPeriod = 0 ∧ State.reset.rstAsserted = true)
    ∧ world.rstAsserted = false ∧ world.tickPeriod ≠ 0
    ∧ (world.lease 1 = .held lease1 ∧ lease1.state = .live ∧ lease1.remaining ≤ 1)
    ∧ (world.lease 0 = .held lease0 ∧ lease0.state = .live ∧ 1 < lease0.remaining)
    ∧ (waiter0 ∈ world.waiters ∧ waiter0.id.slot = 0 ∧ waiter0.left = .bounded 1) ∧ WaitSlotsDistinct world
    ∧ (waiterU ∈ world.waiters ∧ waiterU.id.slot = 2 ∧ waiterU.left = .bounded 2)
    ∧ (let s := world.setLease 2 (.held { lease2 with remaining := 1 })
      s.rstAsserted = false ∧ s.lease 2 = .held { lease2 with remaining := 1 } ∧ lease2.state = .recalled)
    ∧ (world.lease 2 = .held lease2 ∧ 1 < lease2.remaining) := by
  unfold WaitSlotsDistinct; decide +kernel

/-- A first waiter found blocked, and, once lease 0 has ended, found grantable in slot 0; its list has distinct slots. -/
theorem test_premises_of_the_walk :
    (∃ why, grantVerdict world waiterU.claim (world.waiters.takeWhile fun v => decide (v.id ≠ waiterU.id)) = .blocked why)
    ∧ (let s := endLease .released 0 world
      grantVerdict s waiterU.claim (s.waiters.takeWhile fun v => decide (v.id ≠ waiterU.id)) = .grantable 0
        ∧ WaitSlotsDistinct s) := by
  refine ⟨⟨.conflict leaseA 1, by decide +kernel⟩, by decide +kernel, ?_⟩
  unfold WaitSlotsDistinct; decide +kernel

end Sys2Proof.Tests
end

/-! ### The token counter (R12) -/

namespace Sys2Proof.Machine

theorem nextToken_ne_zero (t : Token) : nextToken t ≠ 0 := by
  unfold nextToken
  split
  · decide
  · bv_omega

/-- From a token other than 0 the counter runs through 1 to 4,294,967,295 and starts again (R12). -/
theorem nextToken_toNat {t : Token} (ht : t ≠ 0) : (nextToken t).toNat = t.toNat % 4294967295 + 1 := by
  unfold nextToken
  split
  · next h => subst h; rfl
  · bv_omega

theorem repeat_nextToken_ne_zero {t : Token} (ht : t ≠ 0) : ∀ n, Nat.repeat nextToken n t ≠ 0
  | 0 => ht
  | _ + 1 => nextToken_ne_zero _

theorem repeat_nextToken_toNat {t : Token} (ht : t ≠ 0) :
    ∀ n, (Nat.repeat nextToken n t).toNat = (t.toNat - 1 + n) % 4294967295 + 1
  | 0 => by simp only [Nat.repeat]; bv_omega
  | n + 1 => by
    have ih := repeat_nextToken_toNat ht n
    have step := nextToken_toNat (repeat_nextToken_ne_zero ht n)
    simp only [Nat.repeat]
    omega

/-- The values of the counter within 65 steps all differ. -/
theorem repeat_nextToken_inj {t : Token} (ht : t ≠ 0) {m n : Nat} (hm : m < 65) (hn : n < 65)
    (h : Nat.repeat nextToken m t = Nat.repeat nextToken n t) : m = n := by
  have hm2 := repeat_nextToken_toNat ht m
  have hn2 := repeat_nextToken_toNat ht n
  rw [h] at hm2
  omega

theorem repeat_nextToken_succ (t : Token) : ∀ n, Nat.repeat nextToken n (nextToken t) = Nat.repeat nextToken (n + 1) t
  | 0 => rfl
  | n + 1 => congrArg nextToken (repeat_nextToken_succ t n)

/-- A list without repetition is no longer than a list that holds all its items. -/
theorem length_le_of_nodup_subset {α : Type} [BEq α] [LawfulBEq α] :
    ∀ {xs ys : List α}, xs.Nodup → (∀ x ∈ xs, x ∈ ys) → xs.length ≤ ys.length
  | [], _, _, _ => Nat.zero_le _
  | x :: xs, ys, nodup, sub => by
    obtain ⟨fresh, nodupRest⟩ := List.nodup_cons.1 nodup
    have inYs : x ∈ ys := sub x List.mem_cons_self
    have restSub : ∀ y ∈ xs, y ∈ ys.erase x := by
      intro y hy
      have ne : y ≠ x := fun e => fresh (e ▸ hy)
      exact (List.mem_erase_of_ne ne).2 (sub y (List.mem_cons_of_mem x hy))
    have shorter := length_le_of_nodup_subset nodupRest restSub
    have nonempty := List.length_pos_of_mem inYs
    rw [List.length_erase_of_mem inYs] at shorter
    rw [List.length_cons]
    omega

theorem liveLeases_length_le (s : State) : (liveLeases s).length ≤ 64 := by
  have h : (liveLeases s).length ≤ (List.finRange 64).length := List.length_filterMap_le _ _
  rwa [List.length_finRange] at h

/-- 64 slots carry at most 64 tokens: of 65 values of the counter in a row, one is carried by no live lease. -/
theorem exists_repeat_nextToken_free (s : State) {t : Token} (ht : t ≠ 0) :
    ∃ n, n ≤ 64 ∧ tokenHeld s (Nat.repeat nextToken n t) = false := by
  refine Classical.byContradiction fun none => ?_
  have held : ∀ n, n ≤ 64 → tokenHeld s (Nat.repeat nextToken n t) = true := fun n le =>
    Bool.not_eq_false _ ▸ fun free => none ⟨n, le, free⟩
  let values := (List.range 65).map fun n => Nat.repeat nextToken n t
  let tokens := (liveLeases s).map fun p => p.2.token
  have nodup : values.Nodup := by
    refine List.pairwise_map.2 (List.nodup_range.imp_of_mem fun {m n} hm hn ne same => ne ?_)
    exact repeat_nextToken_inj ht (List.mem_range.1 hm) (List.mem_range.1 hn) same
  have sub : ∀ v ∈ values, v ∈ tokens := by
    intro v hv
    obtain ⟨n, hn, rfl⟩ := List.mem_map.1 hv
    obtain ⟨i, l, hl, carries⟩ := (tokenHeld_iff s _).1 (held n (Nat.le_of_lt_succ (List.mem_range.1 hn)))
    exact List.mem_map.2 ⟨(i, l), (mem_liveLeases s i l).2 hl, carries⟩
  have many := length_le_of_nodup_subset nodup sub
  have few := liveLeases_length_le s
  rw [List.length_map, List.length_map, List.length_range] at many
  omega

/-- The advance ends on the first later value that is free, or with its fuel. -/
theorem advanceToken_spec (held : Token → Bool) : ∀ fuel t, ∃ n, n ≤ fuel ∧
    advanceToken held fuel t = Nat.repeat nextToken n t
      ∧ (∀ m, 1 ≤ m → m < n → held (Nat.repeat nextToken m t) = true)
      ∧ (n = fuel ∨ 1 ≤ n ∧ held (Nat.repeat nextToken n t) = false)
  | 0, t => ⟨0, Nat.le_refl _, rfl, by omega, .inl rfl⟩
  | fuel + 1, t => by
    cases first : held (nextToken t) with
    | false => exact ⟨1, by omega, by simp [advanceToken, first, Nat.repeat], by omega, .inr ⟨Nat.le_refl _, first⟩⟩
    | true =>
      obtain ⟨n, le, result, skipped, stop⟩ := advanceToken_spec held fuel (nextToken t)
      simp only [repeat_nextToken_succ] at result skipped stop
      refine ⟨n + 1, by omega, by simp [advanceToken, first, result], fun m h1 h2 => ?_, ?_⟩
      · obtain _ | _ | m := m
        · omega
        · exact first
        · exact skipped (m + 1) (by omega) (by omega)
      · rcases stop with rfl | ⟨-, free⟩
        · exact .inl rfl
        · exact .inr ⟨by omega, free⟩

/-- From a value that a live lease carries, 64 steps reach the first later value that none carries (R12). -/
theorem advanceToken_free (s : State) {t : Token} (ht : t ≠ 0) (carried : tokenHeld s t = true) :
    ∃ n, 1 ≤ n ∧ n ≤ 64 ∧ advanceToken (tokenHeld s) 64 t = Nat.repeat nextToken n t
      ∧ tokenHeld s (Nat.repeat nextToken n t) = false
      ∧ ∀ m, 1 ≤ m → m < n → tokenHeld s (Nat.repeat nextToken m t) = true := by
  obtain ⟨n, le, result, skipped, stop⟩ := advanceToken_spec (tokenHeld s) 64 t
  obtain ⟨j, hj, free⟩ := exists_repeat_nextToken_free s ht
  have hj0 : j ≠ 0 := by
    rintro rfl
    exact absurd (carried.symm.trans free) (by decide)
  have reached : 1 ≤ n ∧ tokenHeld s (Nat.repeat nextToken n t) = false := by
    rcases stop with rfl | h
    · by_cases h64 : j = 64
      · exact ⟨by omega, h64 ▸ free⟩
      · exact absurd ((skipped j (by omega) (by omega)).symm.trans free) (by decide)
    · exact h
  exact ⟨n, reached.1, le, result, reached.2, skipped⟩

/-- Settles O18: the advance skips the values that live leases carry, and 64 slots cannot carry all 65 values of the
counter that it can see. -/
theorem tokenCounterSkipsHeldTokens : Obligations.TokenCounterSkipsHeldTokens := by
  intro s i l hl ht
  have carried : tokenHeld s l.token = true := (tokenHeld_iff s _).2 ⟨i, l, hl, rfl⟩
  obtain ⟨n, h1, h64, result, free, skipped⟩ := advanceToken_free s ht carried
  refine ⟨?_, ?_, n, h1, h64, result, fun m hm1 hmn => (tokenHeld_iff s _).1 (skipped m hm1 hmn)⟩
  · rw [result]
    exact fun h => absurd ((tokenHeld_iff s _).2 h) (by simp [free])
  · rw [result]
    exact repeat_nextToken_ne_zero ht n

end Sys2Proof.Machine

/-! ### What the checks of a request establish -/

namespace Sys2Proof.Machine

theorem resolveLease_eq_live {s : State} {id : LeaseId} {l : Lease} :
    resolveLease s id = .live l ↔ s.lease id.slot = .held l ∧ l.gen = id.gen := by
  cases h : s.lease id.slot with
  | held m =>
    rw [resolveLease_held h]
    by_cases hg : m.gen = id.gen
    · simp only [hg, if_true, LeaseResolution.live.injEq, SlotContent.held.injEq]
      exact ⟨fun e => ⟨e, e ▸ hg⟩, And.left⟩
    · simp only [hg, if_false, reduceCtorEq, SlotContent.held.injEq, false_iff]
      rintro ⟨rfl, h2⟩
      exact hg h2
  | free m =>
    cases m with
    | none => simp [resolveLease_empty h]
    | some m => by_cases hg : m.gen = id.gen <;> simp [resolveLease_ended h, hg]

theorem conflictSearch_head?_eq_none {s : State} {r : Range} {m : Mode} :
    (conflictSearch s r m).head? = none ↔ ∀ i l, s.lease i = .held l → conflicts l.range l.mode r m = false := by
  rw [List.head?_eq_none_iff]
  exact search_eq_nil s _

/-- The four grant conditions of R28, all met: no live lease and no waiter ahead conflicts, the agent is under its
lease limit, and the slot found is the lowest FREE one. -/
theorem grantVerdict_eq_grantable {s : State} {c : Claim} {ahead : List Waiter} {i : LeaseIdx} :
    grantVerdict s c ahead = .grantable i ↔
      (∀ j l, s.lease j = .held l → conflicts l.range l.mode c.range c.mode = false)
        ∧ (∀ w ∈ ahead, conflicts w.claim.range w.claim.mode c.range c.mode = false)
        ∧ (s.agent c.agent).leaseCount < (s.accessOf c.agent).leaseLimit ∧ LowestFreeSlot s i := by
  rw [← conflictSearch_head?_eq_none, ← freeLeaseSlot_eq_some]
  unfold grantVerdict
  cases (conflictSearch s c.range c.mode).head? with
  | some p => simp
  | none =>
    cases barred : ahead.find? fun w => conflicts w.claim.range w.claim.mode c.range c.mode with
    | some w =>
      have hw := List.find?_some barred
      have mem := List.mem_of_find?_eq_some barred
      simp only [reduceCtorEq, true_and, false_iff, not_and]
      intro clear
      rw [clear w mem] at hw
      cases hw
    | none =>
      have clear : ∀ w ∈ ahead, conflicts w.claim.range w.claim.mode c.range c.mode = false := by
        simpa using barred
      simp only [eq_true clear, true_and]
      by_cases room : (s.agent c.agent).leaseCount < (s.accessOf c.agent).leaseLimit
      · cases freeLeaseSlot s <;> simp [room]
      · simp [room]

/-- A search over a range of numbers ends on the lowest one that passes. -/
theorem find?_finRange_eq_some {n : Nat} {p : Fin n → Bool} {i : Fin n} :
    (List.finRange n).find? p = some i ↔ p i = true ∧ ∀ j, j < i → p j = false := by
  rw [List.find?_eq_some_iff_getElem]
  simp only [List.getElem_finRange, List.length_finRange, Bool.not_eq_true']
  constructor
  · rintro ⟨passes, m, hm, rfl, before⟩
    exact ⟨passes, fun j lt => before j.val lt⟩
  · rintro ⟨passes, before⟩
    exact ⟨passes, i.val, i.isLt, rfl, fun j lt => before ⟨j, Nat.lt_trans lt i.isLt⟩ lt⟩

theorem find?_finRange_eq_none {n : Nat} {p : Fin n → Bool} :
    (List.finRange n).find? p = none ↔ ∀ i, p i = false := by
  simp only [List.find?_eq_none, List.mem_finRange, true_implies, Bool.not_eq_true]

/-- Lookup finds the lowest domain whose bound is above the unit (R127). -/
theorem domainOf_eq_some {s : State} {u : Nat} {d : DomainNo} :
    domainOf s u = some d ↔ u < (s.domain d).bound ∧ ∀ e < d, (s.domain e).bound ≤ u := by
  rw [domainOf, find?_finRange_eq_some]
  simp only [decide_eq_true_eq, decide_eq_false_iff_not, Nat.not_lt]

/-- Checks 3 to 9 of R23, all passed. -/
theorem claimRefusal_eq_none {s : State} {c : Claim} :
    claimRefusal s c = none ↔
      rangeEnd c.range ≤ (s.domain c.domain).bound ∧ (s.accessOf c.agent).mask.getLsbD c.domain.val = true
        ∧ (c.mode = .exclusive → (s.accessOf c.agent).exclusive = true)
        ∧ (c.priority = .urgent → (s.accessOf c.agent).urgent = true)
        ∧ c.duration ≤ (s.domain c.domain).maxDuration ∧ c.warn < c.duration ∧ NoSelfConflict s c := by
  have self : (selfConflicts s c).head? = none ↔ NoSelfConflict s c := by
    rw [List.head?_eq_none_iff, selfConflicts, conflictSearch, List.filter_filter, search_eq_nil]
    simp [NoSelfConflict]
  rw [← self]
  simp only [claimRefusal]
  split
  · next spans => exact iff_of_false nofun fun ⟨h, _⟩ => Nat.not_lt.2 h spans
  split
  · next denied => exact iff_of_false nofun fun ⟨_, h, _⟩ => Bool.false_ne_true (denied.symm.trans h)
  split
  · next mode => exact iff_of_false nofun fun ⟨_, _, h, _⟩ => Bool.false_ne_true (mode.2.symm.trans (h mode.1))
  split
  · next urgent =>
    exact iff_of_false nofun fun ⟨_, _, _, h, _⟩ => Bool.false_ne_true (urgent.2.symm.trans (h urgent.1))
  split
  · next long => exact iff_of_false nofun fun ⟨_, _, _, _, h, _⟩ => Nat.not_lt.2 h long
  split
  · next warn => exact iff_of_false nofun fun ⟨_, _, _, _, _, h, _⟩ => Nat.not_lt.2 warn h
  next spans denied mode urgent long warn =>
    rw [not_and, Bool.not_eq_false] at mode urgent
    rw [Bool.not_eq_false] at denied
    simp only [Nat.not_lt.1 spans, denied, eq_true mode, eq_true urgent, Nat.not_lt.1 long, Nat.not_le.1 warn, true_and]
    cases (selfConflicts s c).head? with
    | none => exact iff_of_true rfl rfl
    | some p => exact iff_of_false nofun nofun

theorem domainIdle_iff {s : State} {d : DomainNo} :
    domainIdle s d = true ↔ (∀ i l, s.lease i = .held l → l.domain ≠ d) ∧ ∀ w ∈ s.waiters, w.claim.domain ≠ d := by
  have leases : leasesIn s d = 0 ↔ ∀ i l, s.lease i = .held l → l.domain ≠ d := by
    simp only [leasesIn, List.length_eq_zero_iff, search_eq_nil, decide_eq_false_iff_not, ne_eq]
  have waiters : waitersIn s d = 0 ↔ ∀ w ∈ s.waiters, w.claim.domain ≠ d := by
    simp [waitersIn]
  simp only [domainIdle, Bool.and_eq_true, decide_eq_true_eq, leases, waiters]

/-- CONFIG_DOMAIN finds no busy domain: d is idle, and the next one is or the bound stays (R132). -/
theorem busyDomain_eq_none {s : State} {d : DomainNo} {bound : Nat} :
    busyDomain s d bound = none ↔
      domainIdle s d = true ∧ (bound = (s.domain d).bound ∨ d = 15 ∨ domainIdle s (d + 1) = true) := by
  unfold busyDomain
  cases domainIdle s d with
  | false => simp
  | true =>
    simp only [Bool.true_eq_false, if_false, ite_eq_right_iff, reduceCtorEq, imp_false, true_and]
    rw [← Bool.not_eq_false (domainIdle s (d + 1))]
    constructor
    · intro free
      by_cases same : bound = (s.domain d).bound
      · exact .inl same
      · by_cases last : d = 15
        · exact .inr (.inl last)
        · exact .inr (.inr fun busy => free ⟨same, last, busy⟩)
    · rintro (same | last | idle) ⟨moved, inner, busy⟩
      · exact moved same
      · exact inner last
      · exact idle busy

/-- A mask leaves out no domain that agent k uses (check 8 of R124). -/
theorem domainLeftOut_eq_none {s : State} {k : AgentNo} {mask : BitVec 16} :
    domainLeftOut s k mask = none ↔
      (∀ i l, s.lease i = .held l → l.holder = k → mask.getLsbD l.domain.val = true)
        ∧ ∀ w ∈ s.waiters, w.claim.agent = k → mask.getLsbD w.claim.domain.val = true := by
  have uses : ∀ d, usesDomain s k d = true ↔
      (∃ i l, s.lease i = .held l ∧ l.holder = k ∧ l.domain = d) ∨ ∃ w ∈ s.waiters, w.claim.agent = k ∧ w.claim.domain = d := by
    intro d
    simp [usesDomain, mem_liveLeases]
  rw [domainLeftOut, find?_finRange_eq_none]
  constructor
  · intro none
    have left : ∀ d, usesDomain s k d = true → mask.getLsbD d.val = true := by
      intro d hd
      simpa [hd] using none d
    exact ⟨fun i l hl hk => left _ ((uses _).2 (.inl ⟨i, l, hl, hk, rfl⟩)),
      fun w hw hk => left _ ((uses _).2 (.inr ⟨w, hw, hk, rfl⟩))⟩
  · rintro ⟨leases, waiters⟩ d
    cases hd : usesDomain s k d with
    | false => rfl
    | true =>
      rcases (uses d).1 hd with ⟨i, l, hl, hk, rfl⟩ | ⟨w, hw, hk, rfl⟩
      · simp [leases i l hl hk]
      · simp [waiters w hw hk]

end Sys2Proof.Machine

/-! ### What a step can do to the lease table

Every command acts on the lease table, the token counter, the claims that wait, the domain records and the access
records by a sequence of the moves below. A law about these records is shown to survive each move once, and so
survives every step. -/

namespace Sys2Proof.Machine

/-- What a move may make of the lease l that stands in slot i: nothing, the changes of a RENEW (R65), a TRIM (R68), a
DOWNGRADE (R70), an UPGRADE (R73) and a countdown (R88), and a recall for a waiter (R96), each under its checks. -/
inductive Reshaped (s : State) (i : LeaseIdx) (l : Lease) : Lease → Prop where
  | same : Reshaped s i l l
  | renewed (asked : Nat) (live : l.state ≠ .recalled)
      (fits : newDuration l asked ≤ (s.domain l.domain).maxDuration) (warn : l.warn < newDuration l asked) :
      Reshaped s i l (renewed l asked)
  | trimmed (r : Range) (fits : trimFits r l.range = true) : Reshaped s i l { l with range := r }
  | downgraded : Reshaped s i l { l with mode := .shared }
  | upgraded (alone : ∀ j m, s.lease j = .held m → j ≠ i → overlaps m.range l.range = false) :
      Reshaped s i l { l with mode := .exclusive }
  | counted (left : 1 < l.remaining) : Reshaped s i l { l with remaining := l.remaining - 1 }
  | recalled (w : Waiter) (waits : w ∈ s.waiters)
      (conflict : conflicts l.range l.mode w.claim.range w.claim.mode = true) :
      Reshaped s i l { l with
        state := .recalled, origin := some w.id, remaining := min l.remaining (s.domain w.claim.domain).recallGrace }

/-- Leases end or are reshaped and waiters leave, and no lease or claim is new. -/
structure Reshapes (s t : State) : Prop where
  leases : ∀ i l', t.lease i = .held l' → ∃ l, s.lease i = .held l ∧ Reshaped s i l l'
  tokenCounter : t.tokenCounter = s.tokenCounter
  claims : ∀ v ∈ t.waiters, ∃ w ∈ s.waiters, v.claim = w.claim
  domains : t.domains = s.domains
  access : t.access = s.access

/-- A claim that passed checks 1 to 9 of an ACQUIRE (R23). -/
structure ClaimChecked (s : State) (c : Claim) : Prop where
  nonempty : 0 < c.range.count
  lookup : domainOf s c.range.base = some c.domain
  admitted : claimRefusal s c = none

/-- The relations that check 7 of a CONFIG_DOMAIN asks of a record (R126, R130). -/
structure DomainRecordSound (r : DomainRecord) : Prop where
  defaultPositive : 1 ≤ r.defaultDuration
  defaultFits : r.defaultDuration ≤ r.maxDuration
  maxFits : r.maxDuration ≤ 65535
  warnFits : r.defaultWarn < r.defaultDuration
  gracePositive : 1 ≤ r.recallGrace
  graceFits : r.recallGrace ≤ 65535

/-- One act on the lease table, the token counter, the claims that wait, the domain records or the access records,
under the checks its command has made: leases and waiters are reshaped or leave; a checked claim is granted (R30) or
queued (R34); the wait list is re-examined (R47); a SET_ACCESS (R125) or a CONFIG_DOMAIN (R133) replaces a record; the
part is reset (R172). -/
inductive Move : State → State → Prop where
  | reshape {s t : State} (h : Reshapes s t) : Move s t
  | grant {s : State} {c : Claim} {ahead : List Waiter} {i : LeaseIdx} (checked : ClaimChecked s c)
      (verdict : grantVerdict s c ahead = .grantable i) : Move s (placeLease c i s)
  | queue {s : State} {w : Waiter} (checked : ClaimChecked s w.claim) : Move s (queueWaiter w s)
  | walk {s : State} : Move s (reexamine s).1
  | setAccess {s : State} {k : AgentNo} {a : AccessRecord} (covers : domainLeftOut s k a.mask = none) :
      Move s (s.setAccessOf k a)
  | setDomain {s : State} {d : DomainNo} {r : DomainRecord} (sound : DomainRecordSound r)
      (low : firstUnit s d ≤ r.bound) (high : r.bound ≤ highestBound s d) (idle : busyDomain s d r.bound = none) :
      Move s (s.setDomain d r)
  | reset {s : State} {ports : Vector Port 9} {draws : Nat} {pending : List Instr} :
      Move s { State.reset with ports, draws, pending }

/-- A sequence of moves. -/
inductive Moves (s : State) : State → Prop where
  | refl : Moves s s
  | tail {t u : State} (first : Moves s t) (last : Move t u) : Moves s u

theorem Move.one {s t : State} (h : Move s t) : Moves s t := .tail .refl h

theorem Moves.trans {s t u : State} (first : Moves s t) (second : Moves t u) : Moves s u := by
  induction second with
  | refl => exact first
  | tail _ last ih => exact ih.tail last

/-- A law that every move keeps, a sequence of moves keeps. -/
theorem Moves.keep {P : State → Prop} (moves : ∀ s t, Move s t → P s → P t) {s t : State} (h : Moves s t) (hs : P s) :
    P t := by
  induction h with
  | refl => exact hs
  | tail _ last ih => exact moves _ _ last ih

/-! ### Operations as moves -/

/-- What touches none of the records that moves are about. -/
theorem Moves.frame {s t : State} (leases : t.leases = s.leases) (tokenCounter : t.tokenCounter = s.tokenCounter)
    (waiters : t.waiters = s.waiters) (domains : t.domains = s.domains) (access : t.access = s.access) : Moves s t :=
  Move.one (.reshape
    { leases := fun i l h => ⟨l, by simpa only [State.lease, leases] using h, .same⟩
      tokenCounter
      claims := fun v hv => ⟨v, waiters ▸ hv, rfl⟩
      domains
      access })

/-- What touches the waiters alone of those records, and brings no new claim. -/
theorem Moves.relist {s t : State} (leases : t.leases = s.leases) (tokenCounter : t.tokenCounter = s.tokenCounter)
    (domains : t.domains = s.domains) (access : t.access = s.access)
    (claims : ∀ v ∈ t.waiters, ∃ w ∈ s.waiters, v.claim = w.claim) : Moves s t :=
  Move.one (.reshape
    { leases := fun i l h => ⟨l, by simpa only [State.lease, leases] using h, .same⟩
      tokenCounter
      claims
      domains
      access })

theorem serve_moves (s : State) (p : PortNo) : Moves s (s.serve p) := .frame rfl rfl rfl rfl rfl

theorem placeReply_moves (s : State) (p : PortNo) (r : Request) (a : Answer) : Moves s (placeReply p r a s) :=
  .frame rfl rfl rfl rfl rfl

theorem setPort_moves (s : State) (p : PortNo) (q : Port) : Moves s (s.setPort p q) := .frame rfl rfl rfl rfl rfl

theorem setAgent_moves (s : State) (k : AgentNo) (a : AgentRecord) : Moves s (s.setAgent k a) :=
  .frame rfl rfl rfl rfl rfl

theorem setNotice_moves (s : State) (k : AgentNo) (q : NoticeState) : Moves s (s.setNotice k q) :=
  .frame rfl rfl rfl rfl rfl

theorem setCursor_moves (s : State) (k : AgentNo) (c : Option Cursor) : Moves s (s.setCursor k c) :=
  .frame rfl rfl rfl rfl rfl

theorem postNotice_moves (s : State) (k : AgentNo) (n : Notice) : Moves s (postNotice k n s) :=
  .frame rfl rfl rfl rfl rfl

theorem depart_moves (s : State) (cause : WaitEnd) (w : Waiter) : Moves s (depart cause w s) :=
  .relist rfl rfl rfl rfl fun v hv => ⟨v, (List.mem_filter.1 hv).1, rfl⟩

theorem updateWaiter_moves (s : State) (id : WaitId) (f : Waiter → Waiter) (keeps : ∀ w, (f w).claim = w.claim) :
    Moves s (updateWaiter id f s) := by
  refine .relist rfl rfl rfl rfl fun v hv => ?_
  obtain ⟨w, hw, rfl⟩ := List.mem_map.1 hv
  refine ⟨w, hw, ?_⟩
  split
  · exact keeps w
  · rfl

theorem setLease_moves {s : State} {i : LeaseIdx} {l l' : Lease} (hl : s.lease i = .held l) (h : Reshaped s i l l') :
    Moves s (s.setLease i (.held l')) := by
  refine Move.one (.reshape { leases := fun j m hm => ?_, tokenCounter := rfl, domains := rfl, access := rfl,
                              claims := fun v hv => ⟨v, hv, rfl⟩ })
  rw [State.setLease_lease] at hm
  split at hm
  · next e => cases hm; exact ⟨l, e ▸ hl, e ▸ h⟩
  · exact ⟨m, hm, .same⟩

theorem endLease_moves (s : State) (cause : EndCause) (i : LeaseIdx) : Moves s (endLease cause i s) := by
  cases hl : s.lease i with
  | free m =>
    rw [endLease_free cause hl]
    exact .refl
  | held l =>
    rw [endLease_held cause hl]
    refine Move.one (.reshape { leases := fun j m hm => ?_, tokenCounter := rfl, domains := rfl, access := rfl,
                                claims := fun v hv => ⟨v, hv, rfl⟩ })
    rw [State.setAgent_lease, State.setLease_lease] at hm
    split at hm
    · cases hm
    · exact ⟨m, hm, .same⟩

theorem endLeasesOf_moves (s : State) (k : AgentNo) (cause : EndCause) : Moves s (endLeasesOf k cause s) :=
  endLeasesOf_keeps (Moves s) cause (fun _ _ h => h.trans (endLease_moves _ _ _)) k s .refl

theorem dropWaitersOf_moves (s : State) (k : AgentNo) : Moves s (dropWaitersOf k s) :=
  dropWaitersOf_keeps (Moves s) (fun _ _ h => h.trans (depart_moves _ _ _)) k s .refl

theorem fence_moves (s : State) (k : AgentNo) (cause : FenceCause) : Moves s (fence k cause s) :=
  fence_keeps (Moves s) (fun _ _ _ h _ => h.trans (setAgent_moves _ _ _)) (fun _ _ h => h.trans (endLease_moves _ _ _))
    (fun _ _ h => h.trans (depart_moves _ _ _)) (fun _ _ h => h.trans (setCursor_moves _ _ _))
    (fun _ _ _ h => h.trans (postNotice_moves _ _ _)) k cause s .refl

theorem expireLease_moves (s : State) (i : LeaseIdx) (l : Lease) : Moves s (expireLease i l s) :=
  (endLease_moves s _ _).trans (postNotice_moves _ _ _)

theorem lapseGrace_moves (s : State) (i : LeaseIdx) (l : Lease) : Moves s (lapseGrace i l s) :=
  (endLease_moves s _ _).trans (fence_moves _ _ _)

theorem lapseWaiter_moves (s : State) (w : Waiter) : Moves s (lapseWaiter w s) :=
  (depart_moves s _ _).trans (postNotice_moves _ _ _)

theorem countdownSlot_moves (s : State) (i : LeaseIdx) : Moves s (countdownSlot i s) := by
  unfold countdownSlot
  split
  · exact .refl
  · next l hl =>
    split
    · split
      · exact expireLease_moves s i l
      · exact lapseGrace_moves s i l
    · next left =>
      have counted := setLease_moves hl (.counted (Nat.not_le.1 left))
      dsimp only
      split
      · exact counted.trans (postNotice_moves _ _ _)
      · exact counted

theorem countdownWaiter_moves (s : State) (w : Waiter) : Moves s (countdownWaiter w s) := by
  unfold countdownWaiter
  split
  · exact .refl
  · split
    · exact lapseWaiter_moves s w
    · exact updateWaiter_moves s _ _ fun _ => rfl

theorem tickStages_moves (s : State) : Moves s (tickStages s) :=
  ((leaseCountdown_keeps (Moves s) (fun _ _ h => h.trans (countdownSlot_moves _ _)) s .refl).trans
    (waitCountdown_keeps (Moves _) (fun _ _ h => h.trans (countdownWaiter_moves _ _)) _ .refl)).trans (Move.one .walk)

/-- What recall leaves in a slot (R95, R96): the lease as it was, or a target of the recall as RECALLED. -/
def RecalledFrom (s : State) (w : Waiter) (t : State) : Prop :=
  ∀ i l', t.lease i = .held l' → ∃ l, s.lease i = .held l ∧
    (l' = l ∨ conflicts l.range l.mode w.claim.range w.claim.mode = true ∧ l' = { l with
      state := .recalled, origin := some w.id, remaining := min l.remaining (s.domain w.claim.domain).recallGrace })

theorem recallFor_recalledFrom (s : State) (w : Waiter) : RecalledFrom s w (recallFor w s).1 := by
  have start : RecalledFrom s w s := fun i l h => ⟨l, h, .inl rfl⟩
  unfold recallFor
  split
  · refine (List.foldlRecOn (motive := fun t => RecalledFrom s w t ∧ t.domains = s.domains) (recallTargets s w)
      (fun t p => recallLease w (t.domain w.claim.domain).recallGrace p t) ⟨start, rfl⟩
      fun t ht p hp => ⟨fun i l' hl' => ?_, ht.2⟩).1
    obtain ⟨j, l⟩ := p
    obtain ⟨held, conflict⟩ := (mem_conflictSearch ..).1 (List.mem_filter.1 hp |>.1)
    simp only [recallLease, postNotice, State.setNotice_lease, State.setLease_lease] at hl'
    split at hl'
    · next e =>
      subst e
      cases hl'
      exact ⟨l, held, .inr ⟨conflict, by rw [State.domain, State.domain, ht.2]⟩⟩
    · exact ht.1 i l' hl'
  · exact start

/-- Recall writes leases and notices alone. -/
theorem recallFor_frame (s : State) (w : Waiter) :
    let t := (recallFor w s).1
    t.tokenCounter = s.tokenCounter ∧ t.waiters = s.waiters ∧ t.domains = s.domains ∧ t.access = s.access :=
  recallFor_keeps (fun t => t.tokenCounter = s.tokenCounter ∧ t.waiters = s.waiters ∧ t.domains = s.domains
    ∧ t.access = s.access) w (fun _ _ _ h => h) s ⟨rfl, rfl, rfl, rfl⟩

theorem recallFor_moves {s : State} {w : Waiter} (waits : w ∈ s.waiters) : Moves s (recallFor w s).1 := by
  obtain ⟨tokenCounter, waiters, domains, access⟩ := recallFor_frame s w
  refine Move.one (.reshape { leases := fun i l' h => ?_, tokenCounter, domains, access,
                              claims := fun v hv => ⟨v, waiters ▸ hv, rfl⟩ })
  obtain ⟨l, hl, rfl | ⟨conflict, rfl⟩⟩ := recallFor_recalledFrom s w i l' h
  · exact ⟨l', hl, .same⟩
  · exact ⟨l, hl, .recalled w waits conflict⟩

/-! ### Requests as moves -/

theorem queueClaim_moves {s : State} {c : Claim} (limit : Nat) (b : Blocked) (i : WaitIdx) (checked : ClaimChecked s c) :
    Moves s (queueClaim c limit b i s).1 :=
  (Move.one (.queue (w := newWaiter c limit b i s) checked)).trans (recallFor_moves ((mem_insertWaiter _ _ _).2 (.inl rfl)))

theorem settleClaim_moves {s : State} {c : Claim} (limit : Nat) (checked : ClaimChecked s c) :
    Moves s (settleClaim c limit s).1 := by
  unfold settleClaim
  split
  · next i verdict => exact Move.one (.grant checked verdict)
  · split
    · exact .refl
    split
    · exact .refl
    split
    · exact .refl
    · exact queueClaim_moves _ _ _ checked

/-- The fields of an ACQUIRE body hold a range with at least one unit (R21). -/
theorem acquireFieldsOf_count {body : List Byte} {f : AcquireFields} (h : acquireFieldsOf body = some f) :
    0 < f.range.count := by
  unfold acquireFieldsOf at h
  split at h
  · dsimp only at h
    split at h
    · split at h
      · next valid =>
        cases h
        exact (by simpa [rangeValid] using valid : _ ∧ _).1
      · cases h
    · cases h
  · cases h

theorem acquireAction_moves (k : AgentNo) (body : List Byte) (s : State) : Moves s (acquireAction k body s).1 := by
  unfold acquireAction
  split
  · exact .refl
  · next f fields =>
    split
    · exact .refl
    · next d lookup =>
      split
      · exact .refl
      · next admitted => exact settleClaim_moves _ ⟨acquireFieldsOf_count fields, lookup, admitted⟩

theorem cancelAction_moves (k : AgentNo) (body : List Byte) (s : State) : Moves s (cancelAction k body s).1 := by
  unfold cancelAction
  split
  · exact .refl
  · split
    · exact .refl
    · split <;> exact .refl
    · split
      · exact (depart_moves s _ _).trans (Move.one .walk)
      · exact .refl

/-- Of a request that names a lease, only its work on the agent's own live lease is left to show. -/
theorem onHeldLease_moves (k : AgentNo) (id : LeaseId) {act : Lease → Action} {s : State}
    (acts : ∀ l, s.lease id.slot = .held l → Moves s (act l s).1) : Moves s (onHeldLease k id act s).1 := by
  unfold onHeldLease
  split
  · exact .refl
  · exact .refl
  · next l live =>
    split
    · exact acts l (resolveLease_eq_live.1 live).1
    · exact .refl

theorem renewAction_moves (k : AgentNo) (body : List Byte) (s : State) : Moves s (renewAction k body s).1 := by
  unfold renewAction
  split
  · refine onHeldLease_moves k _ fun l hl => ?_
    unfold renewLease
    dsimp only
    split
    · exact .refl
    split
    · exact .refl
    split
    · exact .refl
    next recalled long warn =>
      exact setLease_moves hl (.renewed _ recalled (Nat.not_lt.1 long) (Nat.not_le.1 warn))
  · exact .refl

theorem trimAction_moves (k : AgentNo) (body : List Byte) (s : State) : Moves s (trimAction k body s).1 := by
  unfold trimAction
  split
  · refine onHeldLease_moves k _ fun l hl => ?_
    unfold trimLease
    split
    · next fits => exact (setLease_moves hl (.trimmed _ fits)).trans (Move.one .walk)
    · exact .refl
  · exact .refl

theorem downgradeAction_moves (k : AgentNo) (body : List Byte) (s : State) : Moves s (downgradeAction k body s).1 := by
  refine onHeldLease_moves k _ fun l hl => ?_
  unfold downgradeLease
  split
  · exact (setLease_moves hl .downgraded).trans (Move.one .walk)
  · exact .refl

/-- Check 11 of an UPGRADE passes where no other lease overlaps (R72). -/
theorem upgradeBlockers_head?_eq_none {s : State} {i : LeaseIdx} {l : Lease} :
    (upgradeBlockers s i l).head? = none ↔ ∀ j m, s.lease j = .held m → j ≠ i → overlaps m.range l.range = false := by
  rw [List.head?_eq_none_iff, upgradeBlockers, overlapSearch, List.filter_filter, search_eq_nil]
  simp

theorem upgradeAction_moves (k : AgentNo) (body : List Byte) (s : State) : Moves s (upgradeAction k body s).1 := by
  refine onHeldLease_moves k _ fun l hl => ?_
  unfold upgradeLease
  split
  · exact .refl
  split
  · exact .refl
  split
  · exact .refl
  · split
    · exact .refl
    · next alone => exact setLease_moves hl (.upgraded (upgradeBlockers_head?_eq_none.1 alone))

theorem releaseAction_moves (k : AgentNo) (body : List Byte) (s : State) : Moves s (releaseAction k body s).1 :=
  onHeldLease_moves k _ fun _ _ => (endLease_moves s _ _).trans (Move.one .walk)

theorem forceRevokeAction_moves (body : List Byte) (s : State) : Moves s (forceRevokeAction body s).1 := by
  unfold forceRevokeAction
  dsimp only
  split
  · exact .refl
  · exact .refl
  · exact ((endLease_moves s _ _).trans (postNotice_moves _ _ _)).trans (Move.one .walk)

theorem evictAction_moves (body : List Byte) (s : State) : Moves s (evictAction body s).1 := by
  unfold evictAction
  split
  · split
    · exact .refl
    · split
      · exact .refl
      · exact .refl
      · exact (fence_moves s _ _).trans (Move.one .walk)
  · exact .refl

theorem attachAction_moves (k : AgentNo) (s : State) : Moves s (attachAction k s).1 :=
  ((setAgent_moves s _ _).trans (setNotice_moves _ _ _)).trans (setCursor_moves _ _ _)

theorem resyncAction_moves (k : AgentNo) (s : State) : Moves s (resyncAction k s).1 :=
  (setAgent_moves s _ _).trans (setCursor_moves _ _ _)

theorem setTickAction_moves (body : List Byte) (s : State) : Moves s (setTickAction body s).1 :=
  .frame rfl rfl rfl rfl rfl

theorem detachAction_moves (k : AgentNo) (s : State) : Moves s (detachAction k s).1 :=
  (((((setAgent_moves s _ _).trans (endLeasesOf_moves _ k _)).trans (dropWaitersOf_moves _ k)).trans
    (setNotice_moves _ _ _)).trans (setCursor_moves _ _ _)).trans (Move.one .walk)

theorem setAccessAction_moves (body : List Byte) (s : State) : Moves s (setAccessAction body s).1 := by
  unfold setAccessAction
  split
  · exact .refl
  · dsimp only
    split
    · exact .refl
    · split
      · exact .refl
      · next covers =>
        split
        · exact .refl
        · have set := Move.one (.setAccess covers)
          unfold replaceAccess
          dsimp only
          split
          · exact set.trans (Move.one .walk)
          · exact set

theorem natOfBytes_pair_le (b1 b0 : Byte) : natOfBytes [b1, b0] ≤ 65535 := by
  simp only [natOfBytes, List.foldl]
  omega

theorem domainFieldsOf_sound {body : List Byte} {d : DomainNo} {r : DomainRecord}
    (h : domainFieldsOf body = some (d, r)) : DomainRecordSound r := by
  unfold domainFieldsOf at h
  split at h
  · split at h
    · dsimp only at h
      split at h
      · next checks =>
        cases h
        obtain ⟨-, defaultPositive, -, gracePositive, defaultFits, warnFits⟩ := checks
        exact { defaultPositive, defaultFits, warnFits, gracePositive
                maxFits := natOfBytes_pair_le _ _, graceFits := natOfBytes_pair_le _ _ }
      · cases h
    · cases h
  · cases h

theorem configDomainAction_moves (body : List Byte) (s : State) : Moves s (configDomainAction body s).1 := by
  unfold configDomainAction
  split
  · exact .refl
  · next d r fields =>
    split
    · exact .refl
    · next order =>
      obtain ⟨low, high⟩ := not_or.1 order
      split
      · exact .refl
      · next idle =>
        exact Move.one (.setDomain (domainFieldsOf_sound fields) (Nat.not_lt.1 low) (Nat.not_lt.1 high) idle)

theorem domainInfoAction_moves (body : List Byte) (s : State) : Moves s (domainInfoAction body s).1 := by
  unfold domainInfoAction
  split
  · split <;> exact .refl
  · exact .refl

theorem noticeReadAction_moves (k : AgentNo) (s : State) : Moves s (noticeReadAction k s).1 := by
  unfold noticeReadAction
  dsimp only
  split <;> exact .frame rfl rfl rfl rfl rfl

theorem noticeAckAction_moves (k : AgentNo) (body : List Byte) (s : State) : Moves s (noticeAckAction k body s).1 := by
  unfold noticeAckAction
  split
  · dsimp only
    split
    · exact .refl
    · split
      · exact setNotice_moves _ _ _
      · exact .refl
  · exact .refl

theorem setNoticeMaskAction_moves (k : AgentNo) (body : List Byte) (s : State) :
    Moves s (setNoticeMaskAction k body s).1 := by
  unfold setNoticeMaskAction
  split
  · split
    · exact .refl
    · exact setNotice_moves _ _ _
  · exact .refl

theorem leaseBatch_moves (k : AgentNo) (f : Filter) (start : Nat) (s : State) : Moves s (leaseBatch k f start s).1 := by
  unfold leaseBatch
  dsimp only
  split <;> exact .frame rfl rfl rfl rfl rfl

theorem waiterBatch_moves (k : AgentNo) (f : Filter) (ws : List Waiter) (s : State) :
    Moves s (waiterBatch k f ws s).1 := by
  unfold waiterBatch
  dsimp only
  split <;> exact .frame rfl rfl rfl rfl rfl

theorem nextBatch_moves (k : AgentNo) (c : Cursor) (s : State) : Moves s (nextBatch k c s).1 := by
  unfold nextBatch
  split
  · exact leaseBatch_moves _ _ _ _
  · exact waiterBatch_moves _ _ _ _
  · exact waiterBatch_moves _ _ _ _

theorem queryAction_moves (k : AgentNo) (body : List Byte) (s : State) : Moves s (queryAction k body s).1 := by
  unfold queryAction
  split
  · exact .refl
  · exact nextBatch_moves _ _ _

theorem queryNextAction_moves (k : AgentNo) (s : State) : Moves s (queryNextAction k s).1 := by
  unfold queryNextAction
  split
  · exact .refl
  · exact nextBatch_moves _ _ _

theorem checkTokenAction_moves (body : List Byte) (s : State) : Moves s (checkTokenAction body s).1 := by
  unfold checkTokenAction
  split
  · exact .refl
  · unfold checkToken
    split
    · exact .frame rfl rfl rfl rfl rfl
    · dsimp only
      split
      · exact setAgent_moves _ _ _
      · split
        · exact setAgent_moves _ _ _
        · exact .refl

theorem checkAgentAction_moves (body : List Byte) (s : State) : Moves s (checkAgentAction body s).1 := by
  unfold checkAgentAction
  split
  · exact .refl
  · unfold checkAgent
    split
    · exact setAgent_moves _ _ _
    · exact setAgent_moves _ _ _
    · split
      · exact .refl
      · exact setAgent_moves _ _ _

/-! ### Commands as moves -/

section Taking

variable {kind : ReqKind} {k : AgentNo} {act : List Byte → Action} {s t : State}

theorem engineTakes_moves (acts : ∀ body s, Moves s (act body s).1) (h : engineTakes kind k act s = .next t) :
    Moves s t :=
  engineTakes_keeps (Moves s) kind k act (fun _ _ h => h.trans (serve_moves _ _))
    (fun _ _ _ _ h => h.trans (placeReply_moves _ _ _ _)) (fun _ _ h _ => h.trans (acts _ _)) .refl h

theorem noticeUnitTakes_moves (acts : ∀ body s, Moves s (act body s).1) (h : noticeUnitTakes kind k act s = .next t) :
    Moves s t :=
  noticeUnitTakes_keeps (Moves s) kind k act (fun _ _ _ _ h => h.trans (placeReply_moves _ _ _ _))
    (fun _ _ h => h.trans (acts _ _)) .refl h

theorem checkPortTakes_moves (acts : ∀ body s, Moves s (act body s).1) (h : checkPortTakes kind act s = .next t) :
    Moves s t :=
  checkPortTakes_keeps (Moves s) kind act (fun _ _ h => h.trans (serve_moves _ _))
    (fun _ _ _ _ h => h.trans (placeReply_moves _ _ _ _)) (fun _ _ h => h.trans (acts _ _)) .refl h

theorem whileTicking_moves {act : State → State} (acts : ∀ s, Moves s (act s)) (h : whileTicking act s = .next t) :
    Moves s t :=
  whileTicking_keeps (Moves s) act (fun _ h => h.trans (acts _)) .refl h

theorem transact_moves (p : PortNo) (transaction : Option TransactionKind) {act : List Bool → Opened → State → State}
    (phase : LinkPhase) (acts : ∀ bits o s, Moves s (act bits o s)) (s : State) :
    Moves s (transact p transaction act phase s) :=
  transact_keeps (Moves s) p transaction act phase (fun _ _ h => h.trans (setPort_moves _ _ _))
    (fun _ _ _ h => h.trans (acts _ _ _)) s .refl

end Taking

theorem execStatus_moves {p : PortNo} {s t : State} (h : execStatus p s = .next t) : Moves s t := by
  unfold execStatus at h
  split at h
  · exact engineTakes_moves (fun _ _ => .refl) h
  · exact checkPortTakes_moves (fun _ _ => .refl) h

theorem shifts_moves (p : PortNo) (o : Opened) (payload : List Byte) (bits : List Bool) (s : State) :
    Moves s (shifts p o payload bits s) :=
  setPort_moves s _ _

theorem closeSend_moves (p : PortNo) (bits : List Bool) (o : Opened) (s : State) : Moves s (closeSend p bits o s) :=
  (setPort_moves s _ _).trans (shifts_moves _ _ _ _ _)

theorem closeCollect_moves (p : PortNo) (bits : List Bool) (o : Opened) (s : State) : Moves s (closeCollect p bits o s) := by
  unfold closeCollect
  dsimp only
  split
  · exact (shifts_moves _ _ _ _ _).trans (setPort_moves _ _ _)
  · exact shifts_moves _ _ _ _ _

theorem resetPort_moves (p : PortNo) (s : State) : Moves s (resetPort p s) := by
  unfold resetPort
  dsimp only
  split
  · exact (setPort_moves _ _ _).trans (setCursor_moves _ _ _)
  · exact setPort_moves _ _ _

theorem closePortReset_moves (p : PortNo) (bits : List Bool) (o : Opened) (s : State) :
    Moves s (closePortReset p bits o s) :=
  (resetPort_moves p s).trans (shifts_moves _ _ _ _ _)

theorem expireInterval_moves (s : State) : Moves s (expireInterval s) := .frame rfl rfl rfl rfl rfl

theorem execTick_moves {s t : State} (h : execTick s = .next t) : Moves s t := by
  refine whileTicking_moves (fun s => ?_) h
  split
  · exact .refl
  · have taken : Moves s { s with pendingTicks := s.pendingTicks - 1 } := .frame rfl rfl rfl rfl rfl
    exact taken.trans (tickStages_moves _)

theorem execLeaseExpiry_moves {i : LeaseIdx} {s t : State} (h : execLeaseExpiry i s = .next t) : Moves s t := by
  refine whileTicking_moves (fun s => ?_) h
  split
  · split
    · exact expireLease_moves _ _ _
    · exact .refl
  · exact .refl

theorem execGraceLapse_moves {i : LeaseIdx} {s t : State} (h : execGraceLapse i s = .next t) : Moves s t := by
  refine whileTicking_moves (fun s => ?_) h
  split
  · split
    · exact lapseGrace_moves _ _ _
    · exact .refl
  · exact .refl

theorem execWaitLapse_moves {i : WaitIdx} {s t : State} (h : execWaitLapse i s = .next t) : Moves s t := by
  refine whileTicking_moves (fun s => ?_) h
  split
  · exact lapseWaiter_moves _ _
  · exact .refl

theorem execNoticePost_moves {arrival : List (AgentNo × Notice)} {s t : State} (h : execNoticePost arrival s = .next t) :
    Moves s t := by
  unfold execNoticePost whileRunning at h
  split at h <;> cases h
  · exact .refl
  · exact foldl_keeps (Moves s) _ (fun _ _ h => h.trans (postNotice_moves _ _ _)) arrival s .refl

theorem execResetRelease_moves {straps : BitVec 2} {s t : State} (h : execResetRelease straps s = .next t) :
    Moves s t := by
  unfold execResetRelease at h
  split at h <;> cases h
  · exact .frame rfl rfl rfl rfl rfl
  · exact .refl

theorem execUnknownRequest_moves {p : PortNo} {s t : State} (h : execUnknownRequest p s = .next t) : Moves s t := by
  unfold execUnknownRequest at h
  split at h
  · split at h <;> cases h
    · exact (serve_moves _ _).trans (placeReply_moves _ _ _ _)
    · exact .refl
  · cases h
    exact .refl

/-- Every command is a sequence of moves. -/
theorem exec_moves (c : Instr) {s t : State} (h : exec c s = .next t) : Moves s t := by
  cases c with
  | acquire k => exact engineTakes_moves (acquireAction_moves k) h
  | cancel k => exact engineTakes_moves (cancelAction_moves k) h
  | renew k => exact engineTakes_moves (renewAction_moves k) h
  | trim k => exact engineTakes_moves (trimAction_moves k) h
  | downgrade k => exact engineTakes_moves (downgradeAction_moves k) h
  | upgrade k => exact engineTakes_moves (upgradeAction_moves k) h
  | release k => exact engineTakes_moves (releaseAction_moves k) h
  | setTick k => exact engineTakes_moves setTickAction_moves h
  | forceRevoke k => exact engineTakes_moves forceRevokeAction_moves h
  | evict k => exact engineTakes_moves evictAction_moves h
  | attach k => exact engineTakes_moves (fun _ => attachAction_moves k) h
  | detach k => exact engineTakes_moves (fun _ => detachAction_moves k) h
  | resync k => exact engineTakes_moves (fun _ => resyncAction_moves k) h
  | setAccess k => exact engineTakes_moves setAccessAction_moves h
  | configDomain k => exact engineTakes_moves configDomainAction_moves h
  | domainInfo k => exact engineTakes_moves domainInfoAction_moves h
  | noticeRead k => exact noticeUnitTakes_moves (fun _ => noticeReadAction_moves k) h
  | noticeAck k => exact noticeUnitTakes_moves (noticeAckAction_moves k) h
  | setNoticeMask k => exact noticeUnitTakes_moves (setNoticeMaskAction_moves k) h
  | query k => exact engineTakes_moves (queryAction_moves k) h
  | queryNext k => exact engineTakes_moves (fun _ => queryNextAction_moves k) h
  | status p => exact execStatus_moves h
  | checkToken => exact checkPortTakes_moves checkTokenAction_moves h
  | checkAgent => exact checkPortTakes_moves checkAgentAction_moves h
  | send p phase => cases h; exact transact_moves p _ phase (closeSend_moves p) s
  | collect p phase => cases h; exact transact_moves p _ phase (closeCollect_moves p) s
  | portReset p phase => cases h; exact transact_moves p _ phase (closePortReset_moves p) s
  | ignoredTransaction p phase => cases h; exact transact_moves p _ phase (fun _ _ _ => shifts_moves _ _ _ _ _) s
  | deviceReset => cases h; exact Move.one .reset
  | resetRelease straps => exact execResetRelease_moves h
  | intervalExpiry => exact whileTicking_moves expireInterval_moves h
  | tick => exact execTick_moves h
  | leaseExpiry i => exact execLeaseExpiry_moves h
  | graceLapse i => exact execGraceLapse_moves h
  | waitLapse i => exact execWaitLapse_moves h
  | noticePost arrival => exact execNoticePost_moves h
  | unknownRequest p => exact execUnknownRequest_moves h

theorem passRefclk_moves (s : State) : Moves s (passRefclk s) := by
  unfold passRefclk
  split
  · exact .refl
  split
  · exact .frame rfl rfl rfl rfl rfl
  split
  · exact .frame rfl rfl rfl rfl rfl
  · exact expireInterval_moves s

/-- Every step, the idle cycle of REFCLK too, is a sequence of moves. -/
theorem step_moves {s t : State} (h : step s = .next t) : Moves s t := by
  unfold step at h
  split at h
  · cases h
    exact passRefclk_moves s
  · next c rest _ =>
    have taken : Moves s { s with pending := rest } := .frame rfl rfl rfl rfl rfl
    exact taken.trans (exec_moves c h)

end Sys2Proof.Machine

/-! ### Laws that every move keeps -/

namespace Sys2Proof.Machine

/-- After a device reset no slot holds a lease. -/
theorem reset_not_held (i : LeaseIdx) (l : Lease) : State.reset.lease i ≠ .held l := by
  simp [State.lease, State.reset]

/-- A placed lease stands in its slot, and every other slot is as it was. -/
theorem placeLease_lease_cases {c : Claim} {i j : LeaseIdx} {s : State} {l : Lease}
    (h : (placeLease c i s).lease j = .held l) :
    j = i ∧ l = leaseOfClaim c s.leases[i].nextGen s.tokenCounter ∨ j ≠ i ∧ s.lease j = .held l := by
  by_cases e : j = i
  · subst e
    rw [placeLease_lease_self] at h
    exact .inl ⟨rfl, (SlotContent.held.inj h).symm⟩
  · rw [placeLease_lease_ne _ _ _ _ e] at h
    exact .inr ⟨e, h⟩

/-! #### The first law (R9) -/

theorem overlaps_comm (a b : Range) : overlaps a b = overlaps b a := Bool.and_comm _ _

theorem overlaps_iff (a b : Range) : overlaps a b = true ↔ a.base < rangeEnd b ∧ b.base < rangeEnd a := by
  simp [overlaps]

theorem trimFits_iff (new old : Range) :
    trimFits new old = true ↔ new.count ≠ 0 ∧ old.base ≤ new.base ∧ rangeEnd new ≤ rangeEnd old := by
  simp [trimFits, and_assoc]

theorem overlaps_of_trimFits {new old r : Range} (fits : trimFits new old = true) (h : overlaps new r = true) :
    overlaps old r = true := by
  rw [trimFits_iff] at fits
  rw [overlaps_iff] at h ⊢
  omega

/-- Holdings that overlap and do not conflict are both SHARED. -/
theorem shared_of_not_conflicts {a b : Range} {ma mb : Mode} (h : conflicts a ma b mb = false)
    (overlap : overlaps a b = true) : ma = .shared ∧ mb = .shared := by
  cases ma <;> cases mb <;> simp [conflicts, overlap] at h ⊢

/-- Reshaping gives no lease a unit it did not hold, and EXCLUSIVE to none that overlaps another. -/
theorem Reshaped.narrows {s : State} {i : LeaseIdx} {l l' : Lease} (h : Reshaped s i l l') :
    (∀ r, overlaps l'.range r = true → overlaps l.range r = true)
      ∧ (l'.mode = l.mode ∨ l'.mode = .shared
        ∨ ∀ j m, s.lease j = .held m → j ≠ i → overlaps m.range l.range = false) := by
  cases h with
  | same => exact ⟨fun _ h => h, .inl rfl⟩
  | renewed => exact ⟨fun _ h => h, .inl rfl⟩
  | trimmed r fits => exact ⟨fun _ => overlaps_of_trimFits fits, .inl rfl⟩
  | downgraded => exact ⟨fun _ h => h, .inr (.inl rfl)⟩
  | upgraded alone => exact ⟨fun _ h => h, .inr (.inr alone)⟩
  | counted => exact ⟨fun _ h => h, .inl rfl⟩
  | recalled => exact ⟨fun _ h => h, .inl rfl⟩

theorem firstLaw_congr {s t : State} (leases : t.leases = s.leases) (h : FirstLaw s) : FirstLaw t := by
  simpa only [FirstLaw, State.lease, leases] using h

theorem reshapes_keeps_firstLaw {s t : State} (h : Reshapes s t) (law : FirstLaw s) : FirstLaw t := by
  intro i j li' lj' hi hj ne overlap
  obtain ⟨li, hli, ri⟩ := h.leases i li' hi
  obtain ⟨lj, hlj, rj⟩ := h.leases j lj' hj
  obtain ⟨rangeI, modeI⟩ := ri.narrows
  obtain ⟨rangeJ, modeJ⟩ := rj.narrows
  have before : overlaps lj.range li.range = true :=
    rangeJ _ (overlaps_comm _ _ ▸ rangeI _ overlap)
  obtain ⟨sharedJ, sharedI⟩ := law j i lj li hlj hli ne.symm before
  constructor
  · rcases modeI with same | shared | alone
    · exact same.trans sharedI
    · exact shared
    · exact absurd ((alone j lj hlj ne.symm).symm.trans before) (by decide)
  · rcases modeJ with same | shared | alone
    · exact same.trans sharedJ
    · exact shared
    · exact absurd ((alone i li hli ne).symm.trans (overlaps_comm _ _ ▸ before)) (by decide)

/-- A grant needs that no live lease conflicts (condition (a) of R28). -/
theorem placeLease_keeps_firstLaw {s : State} {c : Claim} {ahead : List Waiter} {i : LeaseIdx}
    (verdict : grantVerdict s c ahead = .grantable i) (law : FirstLaw s) : FirstLaw (placeLease c i s) := by
  obtain ⟨clear, -⟩ := grantVerdict_eq_grantable.1 verdict
  intro j k lj lk hj hk ne overlap
  rcases placeLease_lease_cases hj with ⟨rfl, rfl⟩ | ⟨-, hlj⟩ <;>
    rcases placeLease_lease_cases hk with ⟨rfl, rfl⟩ | ⟨-, hlk⟩
  · exact absurd rfl ne
  · exact (shared_of_not_conflicts (clear k lk hlk) (overlaps_comm _ _ ▸ overlap)).symm
  · exact shared_of_not_conflicts (clear j lj hlj) overlap
  · exact law j k lj lk hlj hlk ne overlap

theorem reset_firstLaw : FirstLaw State.reset :=
  fun i _ li _ hi => absurd hi (reset_not_held i li)

theorem move_keeps_firstLaw (s t : State) (h : Move s t) (law : FirstLaw s) : FirstLaw t := by
  cases h with
  | reshape h => exact reshapes_keeps_firstLaw h law
  | grant _ verdict => exact placeLease_keeps_firstLaw verdict law
  | queue => exact firstLaw_congr rfl law
  | walk =>
    exact reexamine_keeps FirstLaw
      (fun _ _ _ h verdict => firstLaw_congr rfl (placeLease_keeps_firstLaw verdict h))
      (fun _ _ _ h => firstLaw_congr rfl h) s law
  | setAccess => exact firstLaw_congr rfl law
  | setDomain => exact firstLaw_congr rfl law
  | reset => exact firstLaw_congr rfl reset_firstLaw

/-- Settles O54: every command is a sequence of moves, and every move keeps the first law. -/
theorem everyStepKeepsTheFirstLaw : Obligations.EveryStepKeepsTheFirstLaw :=
  fun _ _ law h => (step_moves h).keep move_keeps_firstLaw law

/-! #### The fourth law (R12, R13) -/

theorem Reshaped.token_eq {s : State} {i : LeaseIdx} {l l' : Lease} (h : Reshaped s i l l') : l'.token = l.token := by
  cases h <;> rfl

theorem fourthLaw_congr {s t : State} (leases : t.leases = s.leases) (counter : t.tokenCounter = s.tokenCounter)
    (h : FourthLaw s) : FourthLaw t := by
  simpa only [FourthLaw, State.lease, leases, counter] using h

theorem reshapes_keeps_fourthLaw {s t : State} (h : Reshapes s t) (law : FourthLaw s) : FourthLaw t := by
  obtain ⟨differ, free, nonzero⟩ := law
  refine ⟨fun i j li' lj' hi hj same => ?_, fun i l' hi => ?_, h.tokenCounter ▸ nonzero⟩
  · obtain ⟨li, hli, ri⟩ := h.leases i li' hi
    obtain ⟨lj, hlj, rj⟩ := h.leases j lj' hj
    exact differ i j li lj hli hlj (ri.token_eq ▸ rj.token_eq ▸ same)
  · obtain ⟨l, hl, r⟩ := h.leases i l' hi
    rw [r.token_eq, h.tokenCounter]
    exact free i l hl

/-- The new counter value is carried by no live lease, the new one included (R12). -/
theorem placeLease_tokenCounter {s : State} (c : Claim) (i : LeaseIdx) (nonzero : s.tokenCounter ≠ 0) :
    tokenHeld (placeLease c i s) (placeLease c i s).tokenCounter = false ∧ (placeLease c i s).tokenCounter ≠ 0 := by
  have carried : tokenHeld (placeLease c i s) s.tokenCounter = true :=
    (tokenHeld_iff _ _).2 ⟨i, _, placeLease_lease_self c i s, rfl⟩
  obtain ⟨n, -, -, result, free, -⟩ := advanceToken_free (placeLease c i s) nonzero carried
  have counter : (placeLease c i s).tokenCounter = Nat.repeat nextToken n s.tokenCounter := result
  rw [counter]
  exact ⟨free, repeat_nextToken_ne_zero nonzero n⟩

theorem placeLease_keeps_fourthLaw {s : State} (c : Claim) (i : LeaseIdx) (law : FourthLaw s) :
    FourthLaw (placeLease c i s) := by
  obtain ⟨differ, free, nonzero⟩ := law
  obtain ⟨freeAfter, nonzeroAfter⟩ := placeLease_tokenCounter c i nonzero
  refine ⟨fun j k lj lk hj hk same => ?_, fun j l hj => ⟨?_, fun e => ?_⟩, nonzeroAfter⟩
  · rcases placeLease_lease_cases hj with ⟨rfl, rfl⟩ | ⟨-, hlj⟩ <;>
      rcases placeLease_lease_cases hk with ⟨rfl, rfl⟩ | ⟨-, hlk⟩
    · rfl
    · exact absurd same.symm (free k lk hlk).2
    · exact absurd same (free j lj hlj).2
    · exact differ j k lj lk hlj hlk same
  · rcases placeLease_lease_cases hj with ⟨-, rfl⟩ | ⟨-, hlj⟩
    · exact nonzero
    · exact (free j l hlj).1
  · exact absurd ((tokenHeld_iff _ _).2 ⟨j, l, hj, e⟩) (by simp [freeAfter])

theorem reset_fourthLaw : FourthLaw State.reset :=
  ⟨fun i _ li _ hi => absurd hi (reset_not_held i li), fun i l hi => absurd hi (reset_not_held i l),
    show (1 : Token) ≠ 0 by decide⟩

theorem move_keeps_fourthLaw (s t : State) (h : Move s t) (law : FourthLaw s) : FourthLaw t := by
  cases h with
  | reshape h => exact reshapes_keeps_fourthLaw h law
  | grant => exact placeLease_keeps_fourthLaw _ _ law
  | queue => exact fourthLaw_congr rfl rfl law
  | walk =>
    exact reexamine_keeps FourthLaw
      (fun _ _ _ h _ => fourthLaw_congr rfl rfl (placeLease_keeps_fourthLaw _ _ h))
      (fun _ _ _ h => fourthLaw_congr rfl rfl h) s law
  | setAccess => exact fourthLaw_congr rfl rfl law
  | setDomain => exact fourthLaw_congr rfl rfl law
  | reset => exact fourthLaw_congr rfl rfl reset_fourthLaw

/-- Settles O55: every command is a sequence of moves, and every move keeps the fourth law. -/
theorem everyStepKeepsTheFourthLaw : Obligations.EveryStepKeepsTheFourthLaw :=
  fun _ _ law h => (step_moves h).keep move_keeps_fourthLaw law

/-! #### Laws about one record at a time -/

/-- Every live lease and every waiting claim meets its condition. -/
def RecordsMeet (A : Lease → Prop) (B : Claim → Prop) (s : State) : Prop :=
  (∀ i l, s.lease i = .held l → A l) ∧ ∀ w ∈ s.waiters, B w.claim

section Records

variable {A : Lease → Prop} {B : Claim → Prop} {s t : State}

theorem reshapes_keeps_recordsMeet (h : Reshapes s t)
    (keep : ∀ i l l', s.lease i = .held l → A l → Reshaped s i l l' → A l') (law : RecordsMeet A B s) :
    RecordsMeet A B t := by
  refine ⟨fun i l' hl' => ?_, fun v hv => ?_⟩
  · obtain ⟨l, hl, r⟩ := h.leases i l' hl'
    exact keep i l l' hl (law.1 i l hl) r
  · obtain ⟨w, hw, same⟩ := h.claims v hv
    exact same ▸ law.2 w hw

theorem placeLease_keeps_recordsMeet (grants : ∀ c gen token, B c → A (leaseOfClaim c gen token)) {c : Claim}
    (i : LeaseIdx) (claim : B c) (law : RecordsMeet A B s) : RecordsMeet A B (placeLease c i s) := by
  refine ⟨fun j l hj => ?_, law.2⟩
  rcases placeLease_lease_cases hj with ⟨-, rfl⟩ | ⟨-, hl⟩
  · exact grants _ _ _ claim
  · exact law.1 j l hl

theorem queueWaiter_keeps_recordsMeet {w : Waiter} (claim : B w.claim) (law : RecordsMeet A B s) :
    RecordsMeet A B (queueWaiter w s) := by
  refine ⟨law.1, fun v hv => ?_⟩
  rcases (mem_insertWaiter w v s.waiters).1 hv with rfl | old
  · exact claim
  · exact law.2 v old

theorem examine_keeps_recordsMeet (grants : ∀ c gen token, B c → A (leaseOfClaim c gen token)) {w : Waiter}
    (claim : B w.claim) (law : RecordsMeet A B s) : RecordsMeet A B (examine w s).1 := by
  unfold examine
  split
  · next i _ =>
    obtain ⟨leases, claims⟩ := placeLease_keeps_recordsMeet grants i claim law
    exact ⟨leases, fun v hv => claims v (List.mem_filter.1 hv |>.1)⟩
  · refine ⟨law.1, fun v hv => ?_⟩
    obtain ⟨u, hu, rfl⟩ := List.mem_map.1 hv
    split <;> exact law.2 u hu

theorem walk_keeps_recordsMeet (grants : ∀ c gen token, B c → A (leaseOfClaim c gen token)) :
    ∀ (ws : List Waiter) (s : State), (∀ w ∈ ws, B w.claim) → RecordsMeet A B s → RecordsMeet A B (walk ws s).1
  | [], _, _, law => law
  | w :: ws, s, claims, law => by
    obtain ⟨first, rest⟩ := List.forall_mem_cons.1 claims
    exact walk_keeps_recordsMeet grants ws _ rest (examine_keeps_recordsMeet grants first law)

theorem reexamine_keeps_recordsMeet (grants : ∀ c gen token, B c → A (leaseOfClaim c gen token))
    (law : RecordsMeet A B s) : RecordsMeet A B (reexamine s).1 :=
  walk_keeps_recordsMeet grants s.waiters s law.2 law

theorem reset_recordsMeet : RecordsMeet A B State.reset :=
  ⟨fun i l hi => absurd hi (reset_not_held i l), nofun⟩

end Records

theorem reexamine_domains (s : State) : (reexamine s).1.domains = s.domains :=
  reexamine_keeps (fun t => t.domains = s.domains) (fun _ _ _ h _ => h) (fun _ _ _ h => h) s rfl

theorem reexamine_access (s : State) : (reexamine s).1.access = s.access :=
  reexamine_keeps (fun t => t.access = s.access) (fun _ _ _ h _ => h) (fun _ _ _ h => h) s rfl

/-! #### The fifth law (R128) -/

/-- What the fifth law asks of a lease. -/
def LeaseLies (s : State) (l : Lease) : Prop := liesIn s l.holder l.domain l.range

/-- What the fifth law asks of a claim that waits. -/
def ClaimLies (s : State) (c : Claim) : Prop := liesIn s c.agent c.domain c.range

theorem fifthLaw_iff {s : State} : FifthLaw s ↔ RecordsMeet (LeaseLies s) (ClaimLies s) s := .rfl

theorem liesIn_congr {s t : State} (domains : t.domains = s.domains) (access : t.access = s.access) :
    liesIn t = liesIn s := by
  unfold liesIn domainOf State.domain State.accessOf
  rw [domains, access]

/-- The fifth law of a state whose domain and access records are those of s. -/
theorem fifthLaw_of_frame {s t : State} (domains : t.domains = s.domains) (access : t.access = s.access)
    (law : RecordsMeet (LeaseLies s) (ClaimLies s) t) : FifthLaw t := by
  unfold FifthLaw
  rw [liesIn_congr domains access]
  exact law

theorem ClaimChecked.lies {s : State} {c : Claim} (h : ClaimChecked s c) : ClaimLies s c := by
  obtain ⟨fits, mask, -⟩ := claimRefusal_eq_none.1 h.admitted
  exact ⟨h.nonempty, h.lookup, fits, mask⟩

/-- Ranges that overlap lie in the same domain. -/
theorem domain_eq_of_overlaps {s : State} {k k' : AgentNo} {d d' : DomainNo} {r r' : Range} (h : liesIn s k d r)
    (h' : liesIn s k' d' r') (overlap : overlaps r r' = true) : d = d' := by
  obtain ⟨-, lookup, fits, -⟩ := h
  obtain ⟨-, lookup', fits', -⟩ := h'
  obtain ⟨-, below⟩ := domainOf_eq_some.1 lookup
  obtain ⟨-, below'⟩ := domainOf_eq_some.1 lookup'
  rw [overlaps_iff] at overlap
  rcases Nat.lt_trichotomy d.val d'.val with lt | same | lt
  · have := below' d lt
    omega
  · exact Fin.ext same
  · have := below d' lt
    omega

/-- A part of a range that lies in a domain lies in it. -/
theorem liesIn_of_trimFits {s : State} {k : AgentNo} {d : DomainNo} {new old : Range} (fits : trimFits new old = true)
    (h : liesIn s k d old) : liesIn s k d new := by
  obtain ⟨-, lookup, bound, mask⟩ := h
  obtain ⟨-, below⟩ := domainOf_eq_some.1 lookup
  obtain ⟨nonempty, start, stop⟩ := (trimFits_iff _ _).1 fits
  have inside : new.base < rangeEnd new := Nat.lt_add_of_pos_right (Nat.pos_of_ne_zero nonempty)
  exact ⟨Nat.pos_of_ne_zero nonempty, domainOf_eq_some.2 ⟨by omega, fun e lt => Nat.le_trans (below e lt) start⟩,
    Nat.le_trans stop bound, mask⟩

theorem Reshaped.lies {s : State} {i : LeaseIdx} {l l' : Lease} (h : Reshaped s i l l') (lies : LeaseLies s l) :
    LeaseLies s l' := by
  cases h with
  | trimmed r fits => exact liesIn_of_trimFits fits lies
  | _ => exact lies

/-- A new record of an idle domain leaves lookup alone for the ranges of the other domains: its bound stays, or the
next domain is idle too and its old bound is not passed (R131, R132). -/
theorem liesIn_setDomain {s : State} {d e : DomainNo} {r : DomainRecord} {k : AgentNo} {range : Range}
    (high : r.bound ≤ highestBound s d) (other : e ≠ d) (next : r.bound = (s.domain d).bound ∨ d = 15 ∨ e ≠ d + 1)
    (h : liesIn s k e range) : liesIn (s.setDomain d r) k e range := by
  obtain ⟨nonempty, lookup, fits, mask⟩ := h
  obtain ⟨above, below⟩ := domainOf_eq_some.1 lookup
  have same : (s.setDomain d r).domain e = s.domain e := State.setDomain_domain_ne _ _ _ _ other
  refine ⟨nonempty, domainOf_eq_some.2 ⟨same ▸ above, fun e' lt => ?_⟩, same ▸ fits, mask⟩
  rw [State.setDomain_domain]
  split
  · next is =>
    subst is
    have old := below e' lt
    by_cases unmoved : r.bound = (s.domain e').bound
    · omega
    · have notLast : e' ≠ 15 := by
        rintro rfl
        exact absurd lt (Fin.not_lt.2 (Fin.le_last e))
      have apart : e ≠ e' + 1 := (next.resolve_left unmoved).resolve_left notLast
      have after : e' + 1 < e := by
        simp only [Fin.lt_def, ne_eq, Fin.ext_iff, Fin.val_add] at *
        omega
      have := below _ after
      rw [highestBound, if_neg notLast] at high
      omega
  · exact below e' lt

theorem setDomain_keeps_fifthLaw {s : State} {d : DomainNo} {r : DomainRecord} (high : r.bound ≤ highestBound s d)
    (idle : busyDomain s d r.bound = none) (law : FifthLaw s) : FifthLaw (s.setDomain d r) := by
  obtain ⟨here, next⟩ := busyDomain_eq_none.1 idle
  obtain ⟨noLease, noWaiter⟩ := domainIdle_iff.1 here
  simp only [domainIdle_iff] at next
  refine ⟨fun i l hl => ?_, fun w hw => ?_⟩
  · exact liesIn_setDomain high (noLease i l hl) (next.imp_right (.imp_right fun h => h.1 i l hl)) (law.1 i l hl)
  · exact liesIn_setDomain high (noWaiter w hw) (next.imp_right (.imp_right fun h => h.2 w hw)) (law.2 w hw)

/-- A new mask leaves what lies in a domain where it is, if it does not leave the domain out (R124). -/
theorem liesIn_setAccessOf {s : State} {k j : AgentNo} {a : AccessRecord} {d : DomainNo} {r : Range}
    (covers : j = k → a.mask.getLsbD d.val = true) (h : liesIn s j d r) : liesIn (s.setAccessOf k a) j d r := by
  obtain ⟨nonempty, lookup, fits, mask⟩ := h
  refine ⟨nonempty, lookup, fits, ?_⟩
  rw [State.setAccessOf_accessOf]
  split
  · next e => exact covers e
  · exact mask

theorem setAccessOf_keeps_fifthLaw {s : State} {k : AgentNo} {a : AccessRecord} (covers : domainLeftOut s k a.mask = none)
    (law : FifthLaw s) : FifthLaw (s.setAccessOf k a) := by
  obtain ⟨leases, waiters⟩ := domainLeftOut_eq_none.1 covers
  exact ⟨fun i l hl => liesIn_setAccessOf (leases i l hl) (law.1 i l hl),
    fun w hw => liesIn_setAccessOf (waiters w hw) (law.2 w hw)⟩

theorem move_keeps_fifthLaw (s t : State) (h : Move s t) (law : FifthLaw s) : FifthLaw t := by
  have grants : ∀ c gen token, ClaimLies s c → LeaseLies s (leaseOfClaim c gen token) := fun _ _ _ h => h
  cases h with
  | reshape h =>
    exact fifthLaw_of_frame h.domains h.access
      (reshapes_keeps_recordsMeet h (fun _ _ _ _ lies r => r.lies lies) law)
  | grant checked => exact fifthLaw_of_frame rfl rfl (placeLease_keeps_recordsMeet grants _ checked.lies law)
  | queue checked => exact fifthLaw_of_frame rfl rfl (queueWaiter_keeps_recordsMeet checked.lies law)
  | walk =>
    exact fifthLaw_of_frame (reexamine_domains s) (reexamine_access s) (reexamine_keeps_recordsMeet grants law)
  | setAccess covers => exact setAccessOf_keeps_fifthLaw covers law
  | setDomain _ _ high idle => exact setDomain_keeps_fifthLaw high idle law
  | reset => exact fifthLaw_of_frame (s := State.reset) rfl rfl reset_recordsMeet

/-! #### The seventh law (R5, R92) and the domain records (R126) -/

theorem domainRecordsSound_iff {s : State} : DomainRecordsSound s ↔ ∀ d, DomainRecordSound (s.domain d) :=
  ⟨fun h d => let ⟨h1, h2, h3, h4, h5, h6⟩ := h d; ⟨h1, h2, h3, h4, h5, h6⟩,
    fun h d => let ⟨h1, h2, h3, h4, h5, h6⟩ := h d; ⟨h1, h2, h3, h4, h5, h6⟩⟩

theorem domainRecordsSound_congr {s t : State} (domains : t.domains = s.domains) (h : DomainRecordsSound s) :
    DomainRecordsSound t := by
  simpa only [DomainRecordsSound, State.domain, domains] using h

theorem reset_domain (d : DomainNo) : State.reset.domain d = DomainRecord.reset := by
  simp [State.domain, State.reset]

theorem reset_domainRecordsSound : DomainRecordsSound State.reset := by
  refine domainRecordsSound_iff.2 fun d => ?_
  rw [reset_domain]
  constructor <;> decide

theorem move_keeps_domainRecordsSound (s t : State) (h : Move s t) (sound : DomainRecordsSound s) :
    DomainRecordsSound t := by
  cases h with
  | reshape h => exact domainRecordsSound_congr h.domains sound
  | grant => exact domainRecordsSound_congr rfl sound
  | queue => exact domainRecordsSound_congr rfl sound
  | walk => exact domainRecordsSound_congr (reexamine_domains s) sound
  | setAccess => exact domainRecordsSound_congr rfl sound
  | setDomain new =>
    refine domainRecordsSound_iff.2 fun e => ?_
    rw [State.setDomain_domain]
    split
    · exact new
    · exact domainRecordsSound_iff.1 sound e
  | reset => exact domainRecordsSound_congr rfl reset_domainRecordsSound

/-- What the seventh law asks of a lease. -/
def LeaseTimed (s : State) (l : Lease) : Prop :=
  1 ≤ l.remaining ∧ l.remaining ≤ l.duration ∧ l.duration ≤ (s.domain l.domain).maxDuration ∧ l.warn < l.duration
    ∧ (l.state = .recalled → l.remaining ≤ (s.domain l.domain).recallGrace)

/-- What the seventh law asks of a claim that waits. -/
def ClaimTimed (s : State) (c : Claim) : Prop :=
  1 ≤ c.duration ∧ c.duration ≤ (s.domain c.domain).maxDuration ∧ c.warn < c.duration

theorem seventhLaw_iff {s : State} : SeventhLaw s ↔ RecordsMeet (LeaseTimed s) (ClaimTimed s) s := .rfl

/-- The seventh law of a state whose domain records are those of s. -/
theorem seventhLaw_of_frame {s t : State} (domains : t.domains = s.domains)
    (law : RecordsMeet (LeaseTimed s) (ClaimTimed s) t) : SeventhLaw t := by
  have same : ∀ d, t.domain d = s.domain d := fun d => congrArg (·[d]) domains
  simpa only [seventhLaw_iff, RecordsMeet, LeaseTimed, ClaimTimed, same] using law

theorem ClaimChecked.timed {s : State} {c : Claim} (h : ClaimChecked s c) : ClaimTimed s c := by
  obtain ⟨-, -, -, -, fits, warn, -⟩ := claimRefusal_eq_none.1 h.admitted
  exact ⟨by omega, fits, warn⟩

/-- A granted lease starts LIVE with Remaining equal to Duration (R4). -/
theorem ClaimTimed.lease {s : State} {c : Claim} (gen : Gen) (token : Token) (h : ClaimTimed s c) :
    LeaseTimed s (leaseOfClaim c gen token) := by
  obtain ⟨positive, fits, warn⟩ := h
  exact ⟨positive, Nat.le_refl _, fits, warn, nofun⟩

/-- Reshaping keeps the seventh law of a lease. A recall takes the grace of the waiter's domain, which is the lease's
own, because the two ranges overlap and both lie in their domains (R96, R128). -/
theorem Reshaped.timed {s : State} {i : LeaseIdx} {l l' : Lease} (h : Reshaped s i l l') (fifth : FifthLaw s)
    (sound : DomainRecordsSound s) (hl : s.lease i = .held l) (timed : LeaseTimed s l) : LeaseTimed s l' := by
  obtain ⟨positive, within, fits, warn, grace⟩ := timed
  cases h with
  | same => exact ⟨positive, within, fits, warn, grace⟩
  | renewed asked live fitsNew warnNew =>
    exact ⟨Nat.one_le_of_lt warnNew, Nat.le_refl _, fitsNew, warnNew, fun recalled => absurd recalled live⟩
  | trimmed => exact ⟨positive, within, fits, warn, grace⟩
  | downgraded => exact ⟨positive, within, fits, warn, grace⟩
  | upgraded => exact ⟨positive, within, fits, warn, grace⟩
  | counted left =>
    exact ⟨Nat.le_sub_one_of_lt left, Nat.le_trans (Nat.sub_le _ _) within, fits, warn,
      fun recalled => Nat.le_trans (Nat.sub_le _ _) (grace recalled)⟩
  | recalled w waits conflict =>
    have overlap : overlaps l.range w.claim.range = true := (Bool.and_eq_true_iff.1 conflict).1
    have domain : l.domain = w.claim.domain := domain_eq_of_overlaps (fifth.1 i l hl) (fifth.2 w waits) overlap
    have gracePositive := (domainRecordsSound_iff.1 sound w.claim.domain).gracePositive
    exact ⟨Nat.le_min.2 ⟨positive, gracePositive⟩, Nat.le_trans (Nat.min_le_left _ _) within, fits, warn,
      fun _ => domain ▸ Nat.min_le_right _ _⟩

theorem setDomain_keeps_seventhLaw {s : State} {d : DomainNo} {r : DomainRecord} (idle : busyDomain s d r.bound = none)
    (law : SeventhLaw s) : SeventhLaw (s.setDomain d r) := by
  obtain ⟨noLease, noWaiter⟩ := domainIdle_iff.1 (busyDomain_eq_none.1 idle).1
  refine ⟨fun i l hl => ?_, fun w hw => ?_⟩
  · rw [State.setDomain_domain_ne _ _ _ _ (noLease i l hl)]
    exact law.1 i l hl
  · rw [State.setDomain_domain_ne _ _ _ _ (noWaiter w hw)]
    exact law.2 w hw

theorem move_keeps_seventhLaw (s t : State) (h : Move s t) (fifth : FifthLaw s) (sound : DomainRecordsSound s)
    (law : SeventhLaw s) : SeventhLaw t := by
  have grants : ∀ c gen token, ClaimTimed s c → LeaseTimed s (leaseOfClaim c gen token) := fun _ gen token h =>
    h.lease gen token
  cases h with
  | reshape h =>
    exact seventhLaw_of_frame h.domains
      (reshapes_keeps_recordsMeet h (fun _ _ _ hl timed r => r.timed fifth sound hl timed) law)
  | grant checked => exact seventhLaw_of_frame rfl (placeLease_keeps_recordsMeet grants _ checked.timed law)
  | queue checked => exact seventhLaw_of_frame rfl (queueWaiter_keeps_recordsMeet checked.timed law)
  | walk => exact seventhLaw_of_frame (reexamine_domains s) (reexamine_keeps_recordsMeet grants law)
  | setAccess => exact seventhLaw_of_frame rfl law
  | setDomain _ _ _ idle => exact setDomain_keeps_seventhLaw idle law
  | reset => exact seventhLaw_of_frame (s := State.reset) rfl reset_recordsMeet

/-- Settles O58: every command is a sequence of moves, and every move keeps the fifth law, the seventh law and the
relations of the domain records together. -/
theorem everyStepKeepsTheSeventhLaw : Obligations.EveryStepKeepsTheSeventhLaw := by
  intro s t fifth seventh sound h
  have all : FifthLaw t ∧ SeventhLaw t ∧ DomainRecordsSound t :=
    (step_moves h).keep (P := fun u => FifthLaw u ∧ SeventhLaw u ∧ DomainRecordsSound u)
      (fun u v m ⟨fifth, seventh, sound⟩ => ⟨move_keeps_fifthLaw u v m fifth,
        move_keeps_seventhLaw u v m fifth sound seventh, move_keeps_domainRecordsSound u v m sound⟩)
      ⟨fifth, seventh, sound⟩
  exact all.2

end Sys2Proof.Machine

/-! ### Device reset (R18, R59, R94, R111, R112, R123, R126, R148, R161, R172) -/

namespace Sys2Proof.Machine

theorem reset_agent (k : AgentNo) : State.reset.agent k = AgentRecord.reset := by simp [State.agent, State.reset]

theorem reset_accessOf (k : AgentNo) : State.reset.accessOf k = AccessRecord.reset k := by
  simp [State.accessOf, State.reset]

theorem reset_notice (k : AgentNo) : State.reset.notice k = NoticeState.reset := by simp [State.notice, State.reset]

theorem reset_port (p : PortNo) : State.reset.port p = Port.reset := by simp [State.port, State.reset]

theorem reset_cursor (k : AgentNo) : State.reset.cursor k = none := by simp [State.cursor, State.reset]

theorem reset_waitSlot (i : WaitIdx) : State.reset.waitSlot i = { memory := none, nextGen := 0 } := by
  simp [State.waitSlot, State.reset]

/-- While RST# is asserted no line NOTE# is (R172). -/
theorem noteAsserted_of_rstAsserted {s : State} (h : s.rstAsserted = true) (k : AgentNo) : noteAsserted s k = false := by
  simp [noteAsserted, h]

/-- Settles O4, record by record. -/
theorem deviceResetRestoresEveryRecord : Obligations.DeviceResetRestoresEveryRecord := by
  refine ⟨⟨rfl, rfl, rfl, rfl, fun i => by simp [State.reset], rfl, rfl, reset_waitSlot, rfl, reset_agent,
    reset_accessOf 0, fun k other => ?_, reset_domain, reset_notice, noteAsserted_of_rstAsserted rfl, fun p => ?_,
    reset_cursor, rfl, rfl⟩, fun s => rfl⟩
  · rw [reset_accessOf, AccessRecord.reset, if_neg other]
  · rw [reset_port]
    exact ⟨rfl, rfl, rfl, rfl⟩

theorem reset_holdings (k : AgentNo) : holdings State.reset k = [] :=
  List.eq_nil_iff_forall_not_mem.2 fun i h => by
    obtain ⟨l, held, -⟩ := (mem_holdings _ _ _).1 h
    exact reset_not_held i l held

theorem reset_thirdLaw : ThirdLaw State.reset := by
  intro k
  rw [reset_agent, reset_holdings]
  exact ⟨rfl, Nat.zero_le _, rfl, Nat.zero_le _⟩

theorem reset_tenthLaw : TenthLaw State.reset := by
  intro k
  rw [reset_notice]
  exact ⟨Nat.zero_le _, fun _ => Nat.zero_le _⟩

theorem reset_eleventhLaw : EleventhLaw State.reset := by
  intro d e _
  rw [reset_domain, reset_domain]
  exact ⟨Nat.le_refl _, Nat.le_refl _⟩

/-- Settles O53: there is no lease, no waiter and no notice, and every domain ends with the unit space. -/
theorem resetMeetsEveryLaw : Obligations.ResetMeetsEveryLaw :=
  ⟨reset_firstLaw, List.nodup_nil, reset_thirdLaw, reset_fourthLaw, fifthLaw_iff.2 reset_recordsMeet,
    ⟨fun i l hi => absurd hi (reset_not_held i l), nofun⟩, seventhLaw_iff.2 reset_recordsMeet, reset_domainRecordsSound,
    nofun, ⟨List.Pairwise.nil, nofun, List.Pairwise.nil⟩, reset_tenthLaw, reset_eleventhLaw⟩

/-! ### Requests that name a lease (R61, R62, R75, R105, R106) -/

@[simp] theorem resolveLease_serve (s : State) (p : PortNo) (id : LeaseId) :
    resolveLease (s.serve p) id = resolveLease s id := rfl

section NamesLease

variable {s : State} {k : AgentNo} {id : LeaseId} {act : Lease → Action}

theorem onHeldLease_of_ended {m : LeaseMemory} (h : resolveLease s id = .ended m) :
    onHeldLease k id act s = (s, { outcome := .leaseEnded, body := leaseMemoryBytes m }) := by
  simp [onHeldLease, h]

theorem onHeldLease_of_noLease (h : resolveLease s id = .noLease) :
    onHeldLease k id act s = (s, refuse .noSuchLease) := by
  simp [onHeldLease, h]

theorem onHeldLease_of_other {l : Lease} (h : resolveLease s id = .live l) (other : l.holder ≠ k) :
    onHeldLease k id act s = (s, { outcome := .notHolder, body := num1 l.holder.val }) := by
  simp [onHeldLease, h, other]

theorem onHeldLease_of_own {l : Lease} (own : OwnLease s k id l) : onHeldLease k id act s = act l s := by
  obtain ⟨held, gen, holder⟩ := own
  simp [onHeldLease, resolveLease_eq_live.2 ⟨held, gen⟩, holder]

end NamesLease

theorem renewAction_of_body (k : AgentNo) (id : LeaseId) (d1 d0 : Byte) :
    renewAction k (leaseIdBytes id ++ [d1, d0]) = onHeldLease k id (renewLease id (natOfBytes [d1, d0])) := by
  have named := leaseIdOf_leaseIdBytes id
  simp only [leaseIdBytes, num2] at named
  simp only [leaseIdBytes, num2, List.cons_append, List.nil_append, renewAction, named]

theorem trimAction_of_body (k : AgentNo) (id : LeaseId) (range : List Byte) :
    trimAction k (leaseIdBytes id ++ range) = onHeldLease k id (trimLease id (rangeOf range)) := by
  have named := leaseIdOf_leaseIdBytes id
  simp only [leaseIdBytes, num2] at named
  simp only [leaseIdBytes, num2, List.cons_append, List.nil_append, trimAction, named]

theorem downgradeAction_of_body (k : AgentNo) (id : LeaseId) :
    downgradeAction k (leaseIdBytes id) = onHeldLease k id (downgradeLease id) := by
  rw [downgradeAction, leaseIdOf_leaseIdBytes]

theorem upgradeAction_of_body (k : AgentNo) (id : LeaseId) :
    upgradeAction k (leaseIdBytes id) = onHeldLease k id (upgradeLease id) := by
  rw [upgradeAction, leaseIdOf_leaseIdBytes]

theorem releaseAction_of_body (k : AgentNo) (id : LeaseId) :
    releaseAction k (leaseIdBytes id) = onHeldLease k id (releaseLease id) := by
  rw [releaseAction, leaseIdOf_leaseIdBytes]

theorem leaseIdBytes_length (id : LeaseId) : (leaseIdBytes id).length = 2 := rfl

theorem pair_of_length_two {α : Type} : ∀ {xs : List α}, xs.length = 2 → ∃ a b, xs = [a, b]
  | [a, b], _ => ⟨a, b, rfl⟩

/-- Each of the five requests looks its lease up in the same way, and then does its own work on it. -/
theorem exec_namesLease {s : State} {k : AgentNo} {r : Request} {id : LeaseId} {rest : List Byte} {kind : ReqKind}
    {c : Instr} (five : kind ∈ [ReqKind.renew, .trim, .downgrade, .upgrade, .release])
    (command : commandOf k kind = some c) (admitted : Admitted s k kind r) (body : r.body = leaseIdBytes id ++ rest) :
    ∃ act : Lease → Action,
      exec c s =
        let q := onHeldLease k id act (s.serve (agentPort k))
        .next (replied (agentPort k) r q.2.outcome q.2.body q.1) := by
  have taken : ∀ {action : List Byte → Action} {act}, action r.body = onHeldLease k id act →
      engineTakes kind k action s =
        let q := onHeldLease k id act (s.serve (agentPort k))
        .next (replied (agentPort k) r q.2.outcome q.2.body q.1) := by
    intro action act h
    rw [engineTakes_admitted action admitted, h]
  have length : 2 + rest.length = kind.bodyLength := by
    rw [← admitted.2.2.1, body, List.length_append, leaseIdBytes_length]
  have nothing : kind.bodyLength = 2 → r.body = leaseIdBytes id := by
    intro two
    rw [body, List.length_eq_zero_iff.1 (by omega : rest.length = 0), List.append_nil]
  simp only [List.mem_cons, List.not_mem_nil, or_false] at five
  rcases five with rfl | rfl | rfl | rfl | rfl <;> cases command
  · obtain ⟨d1, d0, rfl⟩ := pair_of_length_two (Nat.add_left_cancel length : rest.length = 2)
    exact ⟨_, taken (body ▸ renewAction_of_body k id d1 d0)⟩
  · exact ⟨_, taken (body ▸ trimAction_of_body k id rest)⟩
  · exact ⟨_, taken (nothing rfl ▸ downgradeAction_of_body k id)⟩
  · exact ⟨_, taken (nothing rfl ▸ upgradeAction_of_body k id)⟩
  · exact ⟨_, taken (nothing rfl ▸ releaseAction_of_body k id)⟩

/-- Settles O22: what the id names decides the refusal, whatever the request would have done. -/
theorem leaseIdRefusals : Obligations.LeaseIdRefusals := by
  intro s k r id rest kind five c command admitted body
  obtain ⟨act, run⟩ := exec_namesLease five command admitted body
  have noLease (h : resolveLease s id = .noLease) :=
    onHeldLease_of_noLease (s := s.serve (agentPort k)) (k := k) (act := act) h
  refine ⟨fun m free same => ?_, fun m free other => ?_, fun free => ?_, fun l held other => ?_,
    fun l held same other => ?_⟩ <;> rw [run]
  · rw [onHeldLease_of_ended (s := s.serve (agentPort k)) ((resolveLease_ended free).trans (if_pos same))]
    rfl
  · rw [noLease ((resolveLease_ended free).trans (if_neg other))]
    rfl
  · rw [noLease (resolveLease_empty free)]
    rfl
  · rw [noLease ((resolveLease_held held).trans (if_neg other))]
    rfl
  · rw [onHeldLease_of_other (s := s.serve (agentPort k)) ((resolveLease_held held).trans (if_pos same)) other]

/-- Settles O27: RELEASE ends the lease it names and re-examines the wait list. -/
theorem releaseEndsTheLease : Obligations.ReleaseEndsTheLease := by
  intro s k r id l admitted body own
  have held : (s.serve (agentPort k)).lease id.slot = .held l := own.1
  have run : exec (.release k) s = engineTakes .release k (releaseAction k) s := rfl
  rw [run, engineTakes_admitted _ admitted, body, releaseAction_of_body,
    onHeldLease_of_own (s := s.serve (agentPort k)) own, releaseLease, endLease_held _ held, own.2.2]
  rfl

/-- Settles O28: FORCE_REVOKE looks its lease up as the other requests do, and ends it whoever holds it. -/
theorem forceRevokeEndsTheLease : Obligations.ForceRevokeEndsTheLease := by
  intro s k r id admitted body
  have run : exec (.forceRevoke k) s = engineTakes .forceRevoke k forceRevokeAction s := rfl
  rw [engineTakes_admitted _ admitted, body, forceRevokeAction, leaseIdOf_leaseIdBytes, resolveLease_serve] at run
  refine ⟨fun m free same => ?_, fun m free other => ?_, fun free => ?_, fun l held other => ?_,
    fun l held same => ?_⟩ <;> rw [run]
  · rw [(resolveLease_ended free).trans (if_pos same)]
    rfl
  · rw [(resolveLease_ended free).trans (if_neg other)]
    rfl
  · rw [resolveLease_empty free]
    rfl
  · rw [(resolveLease_held held).trans (if_neg other)]
    rfl
  · rw [(resolveLease_held held).trans (if_pos same)]
    simp only [revokeLease, endLease_held (s := s.serve (agentPort k)) .revoked held]
    rfl

end Sys2Proof.Machine

/-! ### Steps of a tick as commands of their own (R51, R52, R90, R100; log entry 3) -/

namespace Sys2Proof.Machine

/-- An event of the timer that finds nothing to do changes nothing, whether the timer runs or not. -/
theorem whileTicking_unchanged {s : State} {act : State → State} (h : act s = s) : whileTicking act s = .next s := by
  by_cases stopped : s.rstAsserted = true ∨ s.tickPeriod = 0
  · exact whileTicking_stopped act stopped
  · rw [not_or, Bool.not_eq_true] at stopped
    rw [whileTicking_running act stopped.1 stopped.2, h]

theorem execLeaseExpiry_of_stopped {s : State} {i : LeaseIdx} (h : s.rstAsserted = true ∨ s.tickPeriod = 0) :
    execLeaseExpiry i s = .next s :=
  whileTicking_stopped _ h

theorem execLeaseExpiry_of_due {s : State} {i : LeaseIdx} {l : Lease} (running : s.rstAsserted = false)
    (ticking : s.tickPeriod ≠ 0) (held : s.lease i = .held l) (live : l.state = .live) (due : l.remaining ≤ 1) :
    execLeaseExpiry i s = .next (expireLease i l s) := by
  rw [execLeaseExpiry, whileTicking_running _ running ticking]
  simp [held, live, due]

theorem execLeaseExpiry_of_not_due {s : State} {i : LeaseIdx}
    (h : ∀ l, s.lease i = .held l → l.state = .live → 1 < l.remaining) : execLeaseExpiry i s = .next s := by
  refine whileTicking_unchanged ?_
  split
  · next l held => exact if_neg fun ⟨live, due⟩ => Nat.not_le.2 (h l held live) due
  · rfl

theorem execGraceLapse_of_stopped {s : State} {i : LeaseIdx} (h : s.rstAsserted = true ∨ s.tickPeriod = 0) :
    execGraceLapse i s = .next s :=
  whileTicking_stopped _ h

theorem execGraceLapse_of_due {s : State} {i : LeaseIdx} {l : Lease} (running : s.rstAsserted = false)
    (ticking : s.tickPeriod ≠ 0) (held : s.lease i = .held l) (recalled : l.state = .recalled) (due : l.remaining ≤ 1) :
    execGraceLapse i s = .next (lapseGrace i l s) := by
  rw [execGraceLapse, whileTicking_running _ running ticking]
  simp [held, recalled, due]

theorem execGraceLapse_of_not_due {s : State} {i : LeaseIdx}
    (h : ∀ l, s.lease i = .held l → l.state = .recalled → 1 < l.remaining) : execGraceLapse i s = .next s := by
  refine whileTicking_unchanged ?_
  split
  · next l held => exact if_neg fun ⟨recalled, due⟩ => Nat.not_le.2 (h l held recalled) due
  · rfl

/-- In distinct wait slots a waiter is told by its slot (R39). -/
theorem waiter_eq_of_slot {s : State} (distinct : WaitSlotsDistinct s) {v w : Waiter} (hv : v ∈ s.waiters)
    (hw : w ∈ s.waiters) (same : v.id.slot = w.id.slot) : v = w :=
  by
  have apart := List.pairwise_map.1 distinct
  rw [List.pairwise_iff_getElem] at apart
  obtain ⟨m, hm, rfl⟩ := List.getElem_of_mem hv
  obtain ⟨n, hn, rfl⟩ := List.getElem_of_mem hw
  rcases Nat.lt_trichotomy m n with lt | rfl | lt
  · exact absurd same (apart m n hm hn lt)
  · rfl
  · exact absurd same.symm (apart n m hn hm lt)

theorem lapsingWaiter_of_due {s : State} (distinct : WaitSlotsDistinct s) {w : Waiter} {n : Nat} (waits : w ∈ s.waiters)
    (left : w.left = .bounded n) (due : n ≤ 1) : lapsingWaiter s w.id.slot = some w := by
  cases found : lapsingWaiter s w.id.slot with
  | none =>
    have passed := List.find?_eq_none.1 found w waits
    simp [left, due] at passed
  | some v =>
    have slot : v.id.slot = w.id.slot := by
      have h := List.find?_some found
      simp only [Bool.and_eq_true, decide_eq_true_eq] at h
      exact h.1
    rw [waiter_eq_of_slot distinct (List.mem_of_find?_eq_some found) waits slot]

theorem lapsingWaiter_of_not_due {s : State} {i : WaitIdx}
    (h : ∀ w ∈ s.waiters, ∀ n, w.id.slot = i → w.left = .bounded n → 1 < n) : lapsingWaiter s i = none := by
  refine List.find?_eq_none.2 fun w waits => ?_
  rw [Bool.and_eq_true, decide_eq_true_eq, not_and]
  intro slot
  cases left : w.left with
  | unbounded => simp
  | bounded n => simpa using h w waits n slot left

theorem execWaitLapse_of_stopped {s : State} {i : WaitIdx} (h : s.rstAsserted = true ∨ s.tickPeriod = 0) :
    execWaitLapse i s = .next s :=
  whileTicking_stopped _ h

theorem execWaitLapse_of_due {s : State} (running : s.rstAsserted = false) (ticking : s.tickPeriod ≠ 0)
    (distinct : WaitSlotsDistinct s) {w : Waiter} {n : Nat} (waits : w ∈ s.waiters) (left : w.left = .bounded n)
    (due : n ≤ 1) : execWaitLapse w.id.slot s = .next (lapseWaiter w s) := by
  rw [execWaitLapse, whileTicking_running _ running ticking]
  simp [lapsingWaiter_of_due distinct waits left due]

theorem execWaitLapse_of_not_due {s : State} {i : WaitIdx}
    (h : ∀ w ∈ s.waiters, ∀ n, w.id.slot = i → w.left = .bounded n → 1 < n) : execWaitLapse i s = .next s :=
  whileTicking_unchanged (by simp [lapsingWaiter_of_not_due h])

/-- Settles O49: each of the three acts on the one record that is due, and otherwise changes nothing. -/
theorem expiryAndLapsesEndOneRecord : Obligations.ExpiryAndLapsesEndOneRecord := by
  refine ⟨fun s i j stopped => ⟨?_, ?_, ?_⟩, fun s i => ⟨?_, execLeaseExpiry_of_not_due⟩,
    fun s i distinct => ⟨?_, execWaitLapse_of_not_due⟩, fun s i => ⟨?_, execGraceLapse_of_not_due⟩⟩
  · exact execLeaseExpiry_of_stopped stopped
  · exact execWaitLapse_of_stopped stopped
  · exact execGraceLapse_of_stopped stopped
  · intro l running ticking held live due
    refine (execLeaseExpiry_of_due running ticking held live due).trans ?_
    rw [expireLease, endLease_held _ held]
    rfl
  · rintro w waits n running ticking rfl left due
    exact execWaitLapse_of_due running ticking distinct waits left due
  · intro l running ticking held recalled due
    refine (execGraceLapse_of_due running ticking held recalled due).trans ?_
    rw [lapseGrace, endLease_held _ held]
    rfl

/-! ### ACQUIRE (R21 to R30) -/

theorem modeOf_modeBit (m : Mode) : modeOf (BitVec.ofNat 8 (modeBit m)) = some m := by cases m <;> rfl

theorem priorityOf_priorityBit (p : Priority) : priorityOf (BitVec.ofNat 8 (priorityBit p)) = some p := by cases p <;> rfl

theorem tag_of_num2 (t : Tag) : BitVec.ofNat 8 (t.toNat / 256) ++ BitVec.ofNat 8 t.toNat = t := by
  apply BitVec.eq_of_toNat_eq
  rw [BitVec.toNat_append, Nat.shiftLeft_eq, ← Nat.shiftLeft_eq, ← Nat.shiftLeft_add_eq_or_of_lt (BitVec.isLt _)]
  simp only [BitVec.toNat_ofNat, Nat.shiftLeft_eq]
  omega

/-- The tag is read back from its presence and its two bytes (R174). -/
theorem tag_of_tagBytes (tag : Option Tag) :
    ∃ t1 t0, tagBytes tag = [t1, t0] ∧ (if tag.isSome = true then some (t1 ++ t0 : Tag) else none) = tag := by
  cases tag with
  | none => exact ⟨0, 0, rfl, rfl⟩
  | some t => exact ⟨_, _, rfl, congrArg some (tag_of_num2 t)⟩

theorem rangeValid_of_sound {r : Range} (h : RangeSound r) : rangeValid r = true := by
  obtain ⟨nonempty, -, fits⟩ := h
  simp only [rangeEnd] at fits
  simp [rangeValid, nonempty, fits]

/-- The fields of an ACQUIRE are read back from its body (R21). -/
theorem acquireFieldsOf_acquireBody {f : AcquireFields} (range : RangeSound f.range) (duration : f.duration ≤ 65535)
    (warn : f.warn ≤ 65535) (limit : f.waitLimit ≤ 65535) : acquireFieldsOf (acquireBody f) = some f := by
  obtain ⟨nonempty, small, fits⟩ := range
  have start : f.range.base < unitSpace := by
    simp only [rangeEnd] at fits
    omega
  have readRange := rangeOf_rangeBytes f.range start small
  have readDuration := natOfBytes_num2 f.duration (by omega)
  have readWarn := natOfBytes_num2 f.warn (by omega)
  have readLimit := natOfBytes_num2 f.waitLimit (by omega)
  have valid := rangeValid_of_sound ⟨nonempty, small, fits⟩
  obtain ⟨b4, b3, b2, b1, b0, shape⟩ := rangeBytes_shape f.range
  obtain ⟨t1, t0, tagShape, readTag⟩ := tag_of_tagBytes f.tag
  rw [shape] at readRange
  simp only [num2] at readDuration readWarn readLimit
  simp only [acquireBody, shape, tagShape, num1, num2, yesNo, List.cons_append, List.nil_append, acquireFieldsOf,
    modeOf_modeBit, priorityOf_priorityBit, yesNoOf_yesNo, readRange, readDuration, readWarn, readLimit, readTag, valid,
    if_true]

/-- The waiters ahead of a class are those a claim of the class would find ahead of it (R29). -/
theorem aheadOfClass_eq (s : State) (c : Claim) : aheadOfClass c.priority s.waiters = aheadIfQueued s c := by
  unfold aheadIfQueued
  cases c.priority with
  | normal => exact (List.filter_eq_self.2 fun _ _ => rfl).symm
  | urgent => exact List.filter_congr fun w _ => by simp [isUrgent]

/-- The claim the engine builds, with the effective values of R22, is the one the requirements name. -/
theorem claimOf_serve (s : State) (p : PortNo) (k : AgentNo) (f : AcquireFields) (d : DomainNo) :
    claimOf (s.serve p) k f d = requestedClaim s k f d := rfl

/-- The base of a claim that fits is in the claim's domain (R127). -/
theorem domainOf_of_fits {s : State} {c : Claim} (nonempty : 0 < c.range.count) (fits : ClaimFits s c) :
    domainOf s c.range.base = some c.domain := by
  obtain ⟨below, inside, -⟩ := fits
  exact domainOf_eq_some.2 ⟨Nat.lt_of_lt_of_le (Nat.lt_add_of_pos_right nonempty) inside, below⟩

/-- An admitted ACQUIRE that passes its nine checks is settled: granted, refused or queued (R23, R30 to R34). -/
theorem execAcquire_of_checked {s : State} {k : AgentNo} {r : Request} {f : AcquireFields} {d : DomainNo}
    (admitted : AcquireAdmitted s k r f) (fits : ClaimFits s (requestedClaim s k f d))
    (clear : NoSelfConflict s (requestedClaim s k f d)) :
    exec (.acquire k) s =
      let q := settleClaim (requestedClaim s k f d) f.waitLimit (s.serve (agentPort k))
      .next (replied (agentPort k) r q.2.outcome q.2.body q.1) := by
  obtain ⟨ready, body, range, duration, warn, limit⟩ := admitted
  have lookup : domainOf (s.serve (agentPort k)) f.range.base = some d := domainOf_of_fits range.1 fits
  have passes : claimRefusal (s.serve (agentPort k)) (requestedClaim s k f d) = none :=
    claimRefusal_eq_none.2 (by
      obtain ⟨-, inside, mask, mode, urgent, long, warn⟩ := fits
      exact ⟨inside, mask, mode, urgent, long, warn, clear⟩)
  have run : exec (.acquire k) s = engineTakes .acquire k (acquireAction k) s := rfl
  rw [run, engineTakes_admitted _ ready, body, acquireAction, acquireFieldsOf_acquireBody range duration warn limit]
  simp only [lookup, claimOf_serve, passes]

/-- Settles O17: the claim passes its checks and meets the four grant conditions, and the grant places its lease. -/
theorem acquireGrants : Obligations.AcquireGrants := by
  intro s k r f d i c admitted fits clear ahead room lowest gen lease placed
  have own : NoSelfConflict s c := fun j l held _ => clear j l held
  have verdict : grantVerdict (s.serve (agentPort k)) c (aheadOfClass c.priority s.waiters) = .grantable i :=
    grantVerdict_eq_grantable.2 ⟨clear, aheadOfClass_eq s c ▸ ahead, room, lowest⟩
  rw [execAcquire_of_checked admitted fits own, settleClaim, State.serve_waiters, verdict]
  rfl

end Sys2Proof.Machine

/-! ### The four grant conditions (R28, R49) -/

namespace Sys2Proof.Machine

section Verdict

variable {s : State} {c : Claim} {ahead : List Waiter}

theorem grantVerdict_of_conflict {i : LeaseIdx} {l : Lease}
    (first : (conflictSearch s c.range c.mode).head? = some (i, l)) :
    grantVerdict s c ahead = .blocked (.conflict (leaseIdAt i l) l.holder) := by
  simp only [grantVerdict, first]

variable (clear : ∀ j l, s.lease j = .held l → conflicts l.range l.mode c.range c.mode = false)
include clear

theorem grantVerdict_of_earlierWaiter {w : Waiter}
    (first : ahead.find? (fun v => conflicts v.claim.range v.claim.mode c.range c.mode) = some w) :
    grantVerdict s c ahead = .blocked (.earlierWaiter w.id w.claim.agent) := by
  simp only [grantVerdict, conflictSearch_head?_eq_none.2 clear, first]

variable (free : ∀ w ∈ ahead, ¬conflicts w.claim.range w.claim.mode c.range c.mode = true)
include free

theorem grantVerdict_of_agentLimit (full : (s.accessOf c.agent).leaseLimit ≤ (s.agent c.agent).leaseCount) :
    grantVerdict s c ahead = .blocked (.agentLimit (s.accessOf c.agent).leaseLimit) := by
  simp only [grantVerdict, conflictSearch_head?_eq_none.2 clear, List.find?_eq_none.2 free, Nat.not_lt.2 full, if_false]

theorem grantVerdict_of_tableFull (room : (s.agent c.agent).leaseCount < (s.accessOf c.agent).leaseLimit)
    (full : ∀ i, ∃ l, s.lease i = .held l) : grantVerdict s c ahead = .blocked .tableFull := by
  simp only [grantVerdict, conflictSearch_head?_eq_none.2 clear, List.find?_eq_none.2 free, room, if_true,
    (freeLeaseSlot_eq_none s).2 full]

end Verdict

/-- Settles O16: one condition after the other, the first that fails giving the reason and its blocker. -/
theorem grantConditionsInOrder : Obligations.GrantConditionsInOrder := by
  intro s c ahead taken barred limit
  refine ⟨fun i l held meets lowest => ?_, fun untaken => ?_⟩
  · refine grantVerdict_of_conflict ((head?_of_search s _ i l).2 ⟨held, ?_, fun j lt m heldj => ?_⟩)
    · obtain ⟨l', held', conflict⟩ := meets
      cases held.symm.trans held'
      exact conflict
    · exact Bool.eq_false_iff.2 fun conflict => lowest j lt ⟨m, heldj, conflict⟩
  have clear : ∀ j l, s.lease j = .held l → conflicts l.range l.mode c.range c.mode = false :=
    fun j l held => Bool.eq_false_iff.2 fun conflict => untaken j ⟨l, held, conflict⟩
  refine ⟨fun before w behind split passed bars => ?_, fun free => ⟨fun full => ?_, fun room =>
    ⟨fun i lowest => ?_, fun full => ?_⟩⟩⟩
  · refine grantVerdict_of_earlierWaiter clear (List.find?_eq_some_iff_append.2 ⟨bars, before, behind, split, ?_⟩)
    exact fun v hv => by rw [Bool.eq_false_iff.2 (passed v hv), Bool.not_false]
  · exact grantVerdict_of_agentLimit clear free full
  · exact grantVerdict_eq_grantable.2 ⟨clear, fun w hw => Bool.eq_false_iff.2 (free w hw), room, lowest⟩
  · exact grantVerdict_of_tableFull clear free room full

end Sys2Proof.Machine

/-! ### ACQUIRE: the refusals (R21, R23 to R27, R31 to R33) -/

namespace Sys2Proof.Machine

/-- What check 1 of R23 asks of the bytes of a body. -/
theorem acquireFieldsOf_eq_some {body : List Byte} {f : AcquireFields} (h : acquireFieldsOf body = some f) :
    rangeValid (rangeOf (body.take 5)) = true ∧ (body.getD 5 0).toNat ≤ 1 ∧ (body.getD 6 0).toNat ≤ 1
      ∧ (body.getD 13 0).toNat ≤ 1 := by
  unfold acquireFieldsOf at h
  split at h
  · next r0 r1 r2 r3 r4 m p d1 d0 w1 w0 l1 l0 tp t1 t0 =>
    dsimp only at h
    split at h
    · next mode priority tagged hm hp ht =>
      split at h
      · next valid =>
        refine ⟨valid, Nat.not_lt.1 fun high => ?_, Nat.not_lt.1 fun high => ?_, Nat.not_lt.1 fun high => ?_⟩
        · cases (twoCodes_none high).1.symm.trans hm
        · cases (twoCodes_none high).2.1.symm.trans hp
        · cases (twoCodes_none high).2.2.symm.trans ht
      · cases h
    · cases h
  · cases h

theorem rangeValid_eq_true {r : Range} : rangeValid r = true ↔ r.count ≠ 0 ∧ r.base + r.count ≤ unitSpace := by
  simp [rangeValid, Nat.pos_iff_ne_zero]

theorem domainOf_eq_none {s : State} {u : Nat} : domainOf s u = none ↔ ∀ e, (s.domain e).bound ≤ u := by
  simp only [domainOf, find?_finRange_eq_none, decide_eq_false_iff_not, Nat.not_lt]

/-- An admitted ACQUIRE is its action and the reply. -/
theorem execAcquire_admitted {s : State} {k : AgentNo} {r : Request} (admitted : Admitted s k .acquire r) :
    exec (.acquire k) s =
      let q := acquireAction k r.body (s.serve (agentPort k))
      .next (replied (agentPort k) r q.2.outcome q.2.body q.1) :=
  engineTakes_admitted (acquireAction k) admitted

theorem acquireAction_of_badField {k : AgentNo} {body : List Byte} (s : State) (bad : acquireFieldsOf body = none) :
    acquireAction k body s = (s, refuse .badField) := by
  simp only [acquireAction, bad]

section Fields

variable {s : State} {k : AgentNo} {r : Request} {f : AcquireFields} (admitted : AcquireAdmitted s k r f)
include admitted

theorem acquireFieldsOf_of_admitted : acquireFieldsOf r.body = some f := by
  obtain ⟨-, body, range, duration, warn, limit⟩ := admitted
  rw [body, acquireFieldsOf_acquireBody range duration warn limit]

theorem execAcquire_of_outOfSpace (outside : ∀ e, (s.domain e).bound ≤ f.range.base) :
    exec (.acquire k) s =
      .next (replied (agentPort k) r .outOfSpace (num3 (s.domain 15).bound) (s.serve (agentPort k))) := by
  have lookup : domainOf (s.serve (agentPort k)) f.range.base = none := domainOf_eq_none.2 outside
  rw [execAcquire_admitted admitted.1]
  simp only [acquireAction, acquireFieldsOf_of_admitted admitted, lookup, State.serve_domain]

/-- A claim that fails one of checks 3 to 9 is refused, and nothing else is done (R23). -/
theorem execAcquire_of_refused {d : DomainNo} {a : Answer} (lookup : domainOf s f.range.base = some d)
    (refusal : claimRefusal s (requestedClaim s k f d) = some a) :
    exec (.acquire k) s = .next (replied (agentPort k) r a.outcome a.body (s.serve (agentPort k))) := by
  have lookup' : domainOf (s.serve (agentPort k)) f.range.base = some d := lookup
  have refusal' : claimRefusal (s.serve (agentPort k)) (requestedClaim s k f d) = some a := refusal
  rw [execAcquire_admitted admitted.1]
  simp only [acquireAction, acquireFieldsOf_of_admitted admitted, lookup', claimOf_serve, refusal']

end Fields

/-! #### Checks 3 to 9, each with those before it passed -/

/-- A right that is there wherever it is needed is not needed and missing. -/
theorem not_needed_and_missing {needed : Prop} {right : Bool} (h : needed → right = true) :
    ¬(needed ∧ right = false) := by
  rw [not_and, Bool.not_eq_false]
  exact h

theorem needed_and_missing {needed : Prop} {right : Bool} (h : ¬(needed → right = true)) : needed ∧ right = false := by
  rwa [Classical.not_imp, Bool.not_eq_true] at h

section Checks

variable {s : State} {c : Claim}

theorem claimRefusal_of_spansDomains (spans : ¬rangeEnd c.range ≤ (s.domain c.domain).bound) :
    claimRefusal s c =
      some { outcome := .spansDomains, body := num1 c.domain.val ++ num3 (s.domain c.domain).bound } := by
  simp only [claimRefusal, Nat.not_le.1 spans, if_true]

variable (inDomain : rangeEnd c.range ≤ (s.domain c.domain).bound)
include inDomain

theorem claimRefusal_of_domainDenied (denied : ¬(s.accessOf c.agent).mask.getLsbD c.domain.val = true) :
    claimRefusal s c = some (refuse .domainDenied) := by
  simp only [claimRefusal, Nat.not_lt.2 inDomain, Bool.eq_false_iff.2 denied, if_false, if_true]

variable (mask : (s.accessOf c.agent).mask.getLsbD c.domain.val = true)
include mask

theorem claimRefusal_of_modeDenied (denied : ¬(c.mode = .exclusive → (s.accessOf c.agent).exclusive = true)) :
    claimRefusal s c = some (refuse .modeDenied) := by
  simp only [claimRefusal, Nat.not_lt.2 inDomain, mask, Bool.true_eq_false, needed_and_missing denied, and_self, if_false,
    if_true]

variable (mode : c.mode = .exclusive → (s.accessOf c.agent).exclusive = true)
include mode

theorem claimRefusal_of_urgentDenied (denied : ¬(c.priority = .urgent → (s.accessOf c.agent).urgent = true)) :
    claimRefusal s c = some (refuse .urgentDenied) := by
  simp only [claimRefusal, Nat.not_lt.2 inDomain, mask, Bool.true_eq_false, not_needed_and_missing mode,
    needed_and_missing denied, and_self, if_false, if_true]

variable (urgent : c.priority = .urgent → (s.accessOf c.agent).urgent = true)
include urgent

theorem claimRefusal_of_durationTooLong (long : ¬c.duration ≤ (s.domain c.domain).maxDuration) :
    claimRefusal s c = some { outcome := .durationTooLong, body := num2 (s.domain c.domain).maxDuration } := by
  simp only [claimRefusal, Nat.not_lt.2 inDomain, mask, Bool.true_eq_false, not_needed_and_missing mode,
    not_needed_and_missing urgent, Nat.not_le.1 long, if_false, if_true]

variable (duration : c.duration ≤ (s.domain c.domain).maxDuration)
include duration

theorem claimRefusal_of_badWarn (late : c.duration ≤ c.warn) :
    claimRefusal s c = some { outcome := .badWarn, body := num2 c.duration } := by
  simp only [claimRefusal, Nat.not_lt.2 inDomain, mask, Bool.true_eq_false, not_needed_and_missing mode,
    not_needed_and_missing urgent, Nat.not_lt.2 duration, late, if_false, if_true]

/-- Check 9 names the agent's own conflicting lease in the lowest slot (R27). -/
theorem claimRefusal_of_selfConflict (warn : c.warn < c.duration) {j : LeaseIdx} {l : Lease}
    (held : s.lease j = .held l) (own : l.holder = c.agent)
    (conflict : conflicts l.range l.mode c.range c.mode = true)
    (lowest : ∀ i < j, ∀ m, s.lease i = .held m →
      ¬(m.holder = c.agent ∧ conflicts m.range m.mode c.range c.mode = true)) :
    claimRefusal s c = some { outcome := .selfConflict, body := leaseIdBytes (leaseIdAt j l) } := by
  have first : (selfConflicts s c).head? = some (j, l) := by
    rw [selfConflicts, conflictSearch, List.filter_filter, head?_of_search]
    refine ⟨held, by simp [own, conflict], fun i lt m heldi => ?_⟩
    simpa using lowest i lt m heldi
  simp only [claimRefusal, Nat.not_lt.2 inDomain, mask, Bool.true_eq_false, not_needed_and_missing mode,
    not_needed_and_missing urgent, Nat.not_lt.2 duration, Nat.not_le.2 warn, if_false, first]

end Checks

/-! #### A claim that is not grantable (R31 to R34) -/

section Settling

variable {s : State} {c : Claim} {limit : Nat} {why : Blocked}
  (blocked : grantVerdict s c (aheadIfQueued s c) = .blocked why)
include blocked

theorem settleClaim_of_busy (now : limit = 0) :
    settleClaim c limit s = (s, { outcome := .busy, body := blockedBytes why }) := by
  simp only [settleClaim, aheadOfClass_eq, blocked, now, if_true]

variable (waits : limit ≠ 0)
include waits

theorem settleClaim_of_waitLimit (full : (s.accessOf c.agent).waitLimit ≤ (s.agent c.agent).waitCount) :
    settleClaim c limit s = (s, { outcome := .waitLimit, body := num1 (s.accessOf c.agent).waitLimit }) := by
  simp only [settleClaim, aheadOfClass_eq, blocked, waits, full, if_false, if_true]

variable (room : (s.agent c.agent).waitCount < (s.accessOf c.agent).waitLimit)
include room

theorem settleClaim_of_waitlistFull (full : ∀ i : WaitIdx, ∃ w ∈ s.waiters, w.id.slot = i) :
    settleClaim c limit s = (s, { outcome := .waitlistFull, body := blockedBytes why }) := by
  simp only [settleClaim, aheadOfClass_eq, blocked, waits, Nat.not_le.2 room, if_false, (freeWaitSlot_eq_none s).2 full]

theorem settleClaim_of_room {i : WaitIdx} (lowest : LowestEmptyWaitSlot s i) :
    settleClaim c limit s = queueClaim c limit why i s := by
  simp only [settleClaim, aheadOfClass_eq, blocked, waits, Nat.not_le.2 room, if_false,
    (freeWaitSlot_eq_some s i).2 lowest]

end Settling

/-- Check 1 of R23 refuses a body with a range or a code out of bounds. -/
theorem execAcquire_of_badField {s : State} {k : AgentNo} {r : Request} (admitted : Admitted s k .acquire r)
    (bad : (rangeOf (r.body.take 5)).count = 0
      ∨ unitSpace < (rangeOf (r.body.take 5)).base + (rangeOf (r.body.take 5)).count
      ∨ 1 < (r.body.getD 5 0).toNat ∨ 1 < (r.body.getD 6 0).toNat ∨ 1 < (r.body.getD 13 0).toNat) :
    exec (.acquire k) s = .next (replied (agentPort k) r .badField [] (s.serve (agentPort k))) := by
  have fields : acquireFieldsOf r.body = none := Option.eq_none_iff_forall_ne_some.2 fun f some => by
    obtain ⟨valid, mode, priority, tagged⟩ := acquireFieldsOf_eq_some some
    obtain ⟨nonempty, fits⟩ := rangeValid_eq_true.1 valid
    rcases bad with empty | long | code | code | code
    · exact nonempty empty
    · exact Nat.not_lt.2 fits long
    · exact Nat.not_lt.2 mode code
    · exact Nat.not_lt.2 priority code
    · exact Nat.not_lt.2 tagged code
  rw [execAcquire_admitted admitted, acquireAction_of_badField _ fields]
  rfl

/-- Settles O21: the field check, the lookup, checks 3 to 9 and the settling, each with those before it passed. -/
theorem acquireRefusesInOrder : Obligations.AcquireRefusesInOrder := by
  refine ⟨fun s k r admitted => execAcquire_of_badField admitted, ?_⟩
  intro s k r f admitted refused
  refine ⟨execAcquire_of_outOfSpace admitted, ?_⟩
  intro d below above c access inDomain maskOk modeOk urgentOk durationOk
  have refusal {a : Answer} (h : claimRefusal s c = some a) : refused a.outcome a.body :=
    execAcquire_of_refused admitted (domainOf_eq_some.2 ⟨above, below⟩) h
  refine ⟨fun spans => ?_, fun inside denied => ?_, fun inside mask denied => ?_, fun inside mask mode denied => ?_,
    fun inside mask mode urgent long => ?_, fun inside mask mode urgent duration late => ?_, fun fits => ⟨?_, ?_⟩⟩
  · exact refusal (claimRefusal_of_spansDomains spans)
  · exact refusal (claimRefusal_of_domainDenied inside denied)
  · exact refusal (claimRefusal_of_modeDenied inside mask denied)
  · exact refusal (claimRefusal_of_urgentDenied inside mask mode denied)
  · exact refusal (claimRefusal_of_durationTooLong inside mask mode urgent long)
  · exact refusal (claimRefusal_of_badWarn inside mask mode urgent duration late)
  · rintro j l held ⟨l', held', own, conflict⟩ lowest
    cases held.symm.trans held'
    obtain ⟨-, inside, mask, mode, urgent, duration, warn⟩ := fits
    exact refusal (claimRefusal_of_selfConflict inside mask mode urgent duration warn held own conflict
      fun i lt m heldi ⟨owni, conflicti⟩ => lowest i lt ⟨m, heldi, owni, conflicti⟩)
  · intro clear why blocked
    have settled {o : ReplyOutcome} {body : List Byte}
        (h : settleClaim c f.waitLimit (s.serve (agentPort k)) = (s.serve (agentPort k), { outcome := o, body })) :
        refused o body := by
      refine (execAcquire_of_checked admitted fits clear).trans ?_
      rw [h]
    exact ⟨fun now => settled (settleClaim_of_busy blocked now),
      fun waits full => settled (settleClaim_of_waitLimit blocked waits full),
      fun waits room full => settled (settleClaim_of_waitlistFull blocked waits room full)⟩

end Sys2Proof.Machine

/-! ### ACQUIRE: queueing (R34, R40, R42, R44) -/

namespace Sys2Proof.Machine

/-- Where the items that pass stand before the others, the front that passes is all that pass. -/
theorem takeWhile_dropWhile_of_inOrder {α : Type} {p : α → Bool} :
    ∀ {xs : List α}, (xs.Pairwise fun a b => p b = true → p a = true) →
      xs.takeWhile p = xs.filter p ∧ xs.dropWhile p = xs.filter fun x => !p x
  | [], _ => ⟨rfl, rfl⟩
  | x :: xs, inOrder => by
    obtain ⟨first, rest⟩ := List.pairwise_cons.1 inOrder
    cases passes : p x with
    | true =>
      obtain ⟨taken, dropped⟩ := takeWhile_dropWhile_of_inOrder rest
      simp [passes, taken, dropped]
    | false =>
      have others : ∀ y ∈ xs, p y = false := fun y hy => Bool.eq_false_iff.2 fun h =>
        Bool.false_ne_true (passes.symm.trans (first y hy h))
      have none : xs.filter p = [] := List.filter_eq_nil_iff.2 fun y hy => by simp [others y hy]
      have all : (xs.filter fun y => !p y) = xs := List.filter_eq_self.2 fun y hy => by simp [others y hy]
      simp [passes, none, all]

theorem not_isUrgent (w : Waiter) : (!isUrgent w) = decide (w.claim.priority = .normal) := by
  unfold isUrgent
  cases w.claim.priority <;> rfl

/-- With the classes in order, a new waiter goes between them, or to the end (R44). -/
theorem insertWaiter_of_classesInOrder {s : State} (inOrder : ClassesInOrder s) (w : Waiter) :
    insertWaiter w s.waiters =
      if w.claim.priority = .urgent then
        (s.waiters.filter fun v => decide (v.claim.priority = .urgent))
          ++ w :: s.waiters.filter fun v => decide (v.claim.priority = .normal)
      else s.waiters ++ [w] := by
  have split := takeWhile_dropWhile_of_inOrder (p := isUrgent) (xs := s.waiters)
    (inOrder.imp fun h urgent => by simpa [isUrgent] using h (by simpa [isUrgent] using urgent))
  unfold insertWaiter
  cases w.claim.priority with
  | normal => rfl
  | urgent =>
    rw [if_pos rfl, split.1, split.2]
    simp only [not_isUrgent]
    rfl

/-- An ACQUIRE that is checked, not grantable and has room joins the list, and recall runs for it (R34, R35). -/
theorem execAcquire_of_queued {s t : State} {k : AgentNo} {r : Request} {f : AcquireFields} {d : DomainNo}
    {why : Blocked} {i : WaitIdx} {w : Waiter} {n : Nat} (admitted : AcquireAdmitted s k r f)
    (fits : ClaimFits s (requestedClaim s k f d)) (clear : NoSelfConflict s (requestedClaim s k f d))
    (blocked : grantVerdict s (requestedClaim s k f d) (aheadIfQueued s (requestedClaim s k f d)) = .blocked why)
    (waits : f.waitLimit ≠ 0) (room : (s.agent k).waitCount < (s.accessOf k).waitLimit)
    (lowest : LowestEmptyWaitSlot s i) (waiter : newWaiter (requestedClaim s k f d) f.waitLimit why i s = w)
    (recalls : recallFor w (queueWaiter w (s.serve (agentPort k))) = (t, n)) :
    exec (.acquire k) s = .next (replied (agentPort k) r .queued
      (waitIdBytes w.id ++ blockedBytes why ++ num1 (aheadIfQueued s (requestedClaim s k f d)).length ++ num1 n) t) := by
  have settled : settleClaim (requestedClaim s k f d) f.waitLimit (s.serve (agentPort k)) =
      queueClaim (requestedClaim s k f d) f.waitLimit why i (s.serve (agentPort k)) :=
    settleClaim_of_room (s := s.serve (agentPort k)) blocked waits room lowest
  have waiter' : newWaiter (requestedClaim s k f d) f.waitLimit why i (s.serve (agentPort k)) = w := waiter
  rw [execAcquire_of_checked admitted fits clear, settled]
  simp only [queueClaim, waiter', recalls, State.serve_waiters, aheadOfClass_eq]

theorem recallFor_of_off {s : State} {w : Waiter}
    (off : w.claim.priority = .normal ∨ (s.domain w.claim.domain).recallEnabled = false) : recallFor w s = (s, 0) := by
  refine if_neg fun ⟨urgent, enabled⟩ => ?_
  rcases off with normal | disabled
  · cases urgent.symm.trans normal
  · cases enabled.symm.trans disabled

/-- Settles O19: the claim is settled by queueing, which places its waiter by class, and no recall runs. -/
theorem acquireQueues : Obligations.AcquireQueues := by
  intro s k r f d why i c admitted fits clear inOrder blocked waits room lowest off gen w urgent normal
  have noRecall : recallFor w (queueWaiter w (s.serve (agentPort k))) = (queueWaiter w (s.serve (agentPort k)), 0) :=
    recallFor_of_off off
  refine (execAcquire_of_queued admitted fits clear blocked waits room lowest rfl noRecall).trans ?_
  rw [queueWaiter_spec, State.serve_waiters, insertWaiter_of_classesInOrder inOrder w]
  rfl

end Sys2Proof.Machine

/-! ### ACQUIRE: the recall for an URGENT waiter (R35, R95 to R97) -/

namespace Sys2Proof.Machine

/-- Leases recalled for w, one after the other, with the grace given (R95, R96). -/
def recallAll (w : Waiter) (grace : Nat) (targets : List (LeaseIdx × Lease)) (s : State) : State :=
  targets.foldl (fun t p => recallLease w grace p t) s

/-- A lease as a recall for w leaves it (R96). -/
def recalledLease (w : Waiter) (grace : Nat) (l : Lease) : Lease :=
  { l with state := .recalled, origin := some w.id, remaining := min l.remaining grace }

/-- The notice that a recall for w posts to the holder of p (R96). -/
def recallNotice (w : Waiter) (grace : Nat) (p : LeaseIdx × Lease) : Notice :=
  .recall (leaseIdAt p.1 p.2) (min p.2.remaining grace) w.claim.agent

theorem recallLease_eq (w : Waiter) (grace : Nat) (p : LeaseIdx × Lease) (s : State) :
    recallLease w grace p s =
      postNotice p.2.holder (recallNotice w grace p) (s.setLease p.1 (.held (recalledLease w grace p.2))) := rfl

theorem recallLease_lease (w : Waiter) (grace : Nat) (p : LeaseIdx × Lease) (s : State) (j : LeaseIdx) :
    (recallLease w grace p s).lease j = if j = p.1 then .held (recalledLease w grace p.2) else s.lease j := by
  rw [recallLease_eq, postNotice, State.setNotice_lease, State.setLease_lease]

theorem recallLease_nextGen (w : Waiter) (grace : Nat) (p : LeaseIdx × Lease) (s : State) (j : LeaseIdx) :
    (recallLease w grace p s).leases[j].nextGen = s.leases[j].nextGen := by
  rw [recallLease_eq]
  exact State.setLease_nextGen s p.1 _ j

theorem recallLease_notice (w : Waiter) (grace : Nat) (p : LeaseIdx × Lease) (s : State) (a : AgentNo) :
    (recallLease w grace p s).notice a =
      if p.2.holder = a then storeNotice (recallNotice w grace p) (s.notice a) else s.notice a := by
  rw [recallLease_eq, postNotice, State.setNotice_notice, State.setLease_notice, State.setLease_notice]
  by_cases h : p.2.holder = a
  · rw [if_pos h, if_pos h.symm, h]
  · rw [if_neg h, if_neg (Ne.symm h)]

section RecallAll

variable (w : Waiter) (grace : Nat)

theorem recallAll_cons (p : LeaseIdx × Lease) (targets : List (LeaseIdx × Lease)) (s : State) :
    recallAll w grace (p :: targets) s = recallAll w grace targets (recallLease w grace p s) := rfl

theorem recallAll_frame (targets : List (LeaseIdx × Lease)) (s : State) :
    ∃ leases notices, recallAll w grace targets s = { s with leases := leases, notices := notices } := by
  refine foldl_keeps (fun t => ∃ leases notices, t = { s with leases := leases, notices := notices }) _ ?_ targets s
    ⟨_, _, rfl⟩
  rintro _ p ⟨leases, notices, rfl⟩
  exact ⟨_, _, rfl⟩

theorem recallAll_nextGen (targets : List (LeaseIdx × Lease)) (s : State) (j : LeaseIdx) :
    (recallAll w grace targets s).leases[j].nextGen = s.leases[j].nextGen :=
  foldl_keeps (fun t => t.leases[j].nextGen = s.leases[j].nextGen) _
    (fun t p h => (recallLease_nextGen w grace p t j).trans h) targets s rfl

/-- A slot that no target names stays as it was. -/
theorem recallAll_lease_of_other {j : LeaseIdx} :
    ∀ {targets : List (LeaseIdx × Lease)} (s : State), (∀ l, (j, l) ∉ targets) →
      (recallAll w grace targets s).lease j = s.lease j
  | [], _, _ => rfl
  | (i, l) :: targets, s, other => by
    have ne : j ≠ i := fun e => other l (e ▸ List.mem_cons_self)
    rw [recallAll_cons, recallAll_lease_of_other _ fun m h => other m (List.mem_cons_of_mem _ h), recallLease_lease,
      if_neg ne]

/-- Of targets in slots of their own, each is recalled once. -/
theorem recallAll_lease_of_target {j : LeaseIdx} {l : Lease} :
    ∀ {targets : List (LeaseIdx × Lease)} (s : State), (targets.Pairwise fun a b => a.1 < b.1) → (j, l) ∈ targets →
      (recallAll w grace targets s).lease j = .held (recalledLease w grace l)
  | p :: targets, s, ascending, member => by
    obtain ⟨first, rest⟩ := List.pairwise_cons.1 ascending
    rw [recallAll_cons]
    rcases List.mem_cons.1 member with rfl | later
    · rw [recallAll_lease_of_other w grace _ fun m h => absurd (first (j, m) h) (Fin.lt_irrefl j),
        recallLease_lease, if_pos rfl]
    · exact recallAll_lease_of_target _ rest later

/-- A queue takes the RECALL notices of its agent's leases, in the order of the targets. -/
theorem recallAll_notice (a : AgentNo) :
    ∀ (targets : List (LeaseIdx × Lease)) (s : State), (recallAll w grace targets s).notice a =
      (targets.filter fun p => decide (p.2.holder = a)).foldl (fun q p => storeNotice (recallNotice w grace p) q)
        (s.notice a)
  | [], _ => rfl
  | p :: targets, s => by
    rw [recallAll_cons, recallAll_notice a targets, recallLease_notice]
    by_cases h : p.2.holder = a <;> simp [h]

end RecallAll

theorem mem_recallTargets {s : State} {w : Waiter} {i : LeaseIdx} {l : Lease} :
    (i, l) ∈ recallTargets s w ↔ s.lease i = .held l
      ∧ conflicts l.range l.mode w.claim.range w.claim.mode = true ∧ l.state = .live ∧ l.priority = .normal
      ∧ l.holder ≠ w.claim.agent := by
  simp only [recallTargets, List.mem_filter, mem_conflictSearch, recallable, Bool.and_eq_true, decide_eq_true_eq,
    and_assoc]

theorem recallTargets_ascending (s : State) (w : Waiter) : (recallTargets s w).Pairwise fun a b => a.1 < b.1 :=
  ((liveLeases_ascending s).filter _).filter _

/-- The targets that one agent holds, by the conditions of R95. -/
theorem recallTargets_of_holder (s : State) (w : Waiter) (a : AgentNo) :
    ((recallTargets s w).filter fun p => decide (p.2.holder = a)) =
      (liveLeases s).filter fun p =>
        decide (conflicts p.2.range p.2.mode w.claim.range w.claim.mode = true ∧ p.2.state = .live
          ∧ p.2.priority = .normal ∧ p.2.holder ≠ w.claim.agent ∧ p.2.holder = a) := by
  simp only [recallTargets, conflictSearch, List.filter_filter]
  refine List.filter_congr fun p _ => ?_
  rw [Bool.eq_iff_iff]
  simp only [recallable, Bool.and_eq_true, decide_eq_true_eq]
  constructor
  · rintro ⟨own, ⟨⟨live, normal⟩, other⟩, conflict⟩
    exact ⟨conflict, live, normal, other, own⟩
  · rintro ⟨conflict, live, normal, other, own⟩
    exact ⟨own, ⟨⟨live, normal⟩, other⟩, conflict⟩

/-- The grace is that of the waiter's domain, which recall does not change (R96). -/
theorem recallFor_of_on {s : State} {w : Waiter} (urgent : w.claim.priority = .urgent)
    (on : (s.domain w.claim.domain).recallEnabled = true) :
    recallFor w s =
      (recallAll w (s.domain w.claim.domain).recallGrace (recallTargets s w) s, (recallTargets s w).length) := by
  have fold : ∀ (targets : List (LeaseIdx × Lease)) (t : State), t.domains = s.domains →
      targets.foldl (fun t p => recallLease w (t.domain w.claim.domain).recallGrace p t) t =
        recallAll w (s.domain w.claim.domain).recallGrace targets t := by
    intro targets
    induction targets with
    | nil => exact fun _ _ => rfl
    | cons p targets ih =>
      intro t same
      have grace : t.domain w.claim.domain = s.domain w.claim.domain := by rw [State.domain, State.domain, same]
      rw [List.foldl_cons, grace, recallAll_cons]
      exact ih _ same
  rw [recallFor, if_pos ⟨urgent, on⟩, fold _ _ rfl]

theorem sum_map_add_map {α : Type} (f g : α → Nat) :
    ∀ xs : List α, (xs.map fun x => f x + g x).sum = (xs.map f).sum + (xs.map g).sum
  | [] => rfl
  | x :: xs => by
    have ih := sum_map_add_map f g xs
    simp only [List.map_cons, List.sum_cons]
    omega

/-- The leases of a list, counted agent by agent. -/
theorem length_eq_sum_holders (xs : List (LeaseIdx × Lease)) :
    ((List.finRange 8).map fun a => (xs.filter fun p => decide (p.2.holder = a)).length).sum = xs.length := by
  induction xs with
  | nil => rfl
  | cons p xs ih =>
    have one : ∀ k : AgentNo, ((List.finRange 8).map fun a => if k = a then 1 else 0).sum = 1 := by decide
    have split : ∀ a, ((p :: xs).filter fun p => decide (p.2.holder = a)).length =
        (xs.filter fun p => decide (p.2.holder = a)).length + if p.2.holder = a then 1 else 0 := by
      intro a
      by_cases h : p.2.holder = a <;> simp [h]
    simp only [split, sum_map_add_map, ih, one, List.length_cons]

/-- Settles O20: the claim is queued as any other, and the recall then runs over its targets in slot order. -/
theorem urgentAcquireRecalls : Obligations.UrgentAcquireRecalls := by
  intro s k r f d why i c admitted fits clear inOrder blocked waits room lowest urgentClaim enabled gen w grace recalled
    posts count urgent normal
  let u := queueWaiter w (s.serve (agentPort k))
  let targets := recallTargets s w
  have recalls : recallFor w u = (recallAll w grace targets u, targets.length) :=
    recallFor_of_on (s := u) urgentClaim enabled
  have postsOf : ∀ a, posts a = targets.filter fun p => decide (p.2.holder = a) :=
    fun a => (recallTargets_of_holder s w a).symm
  have counted : count = targets.length := by
    simp only [count, postsOf]
    exact length_eq_sum_holders targets
  refine ⟨_, execAcquire_of_queued admitted fits clear blocked waits room lowest rfl recalls, ?_, ?_, ?_, ?_, ?_⟩
  · obtain ⟨leases, notices, frame⟩ := recallAll_frame w grace targets u
    have place := insertWaiter_of_classesInOrder inOrder w
    rw [if_pos urgentClaim] at place
    rw [frame, counted]
    simp only [u, queueWaiter_spec, State.serve_waiters, place]
    rfl
  · exact fun j => recallAll_nextGen w grace targets u j
  · exact fun j l target =>
      recallAll_lease_of_target w grace u (recallTargets_ascending s w) (mem_recallTargets.2 target)
  · exact fun j untouched => recallAll_lease_of_other w grace u fun l h => untouched l (mem_recallTargets.1 h)
  · intro a
    rw [postsOf]
    exact recallAll_notice w grace a targets u

end Sys2Proof.Machine

/-! ### RENEW, TRIM, DOWNGRADE and UPGRADE of the agent's own lease (R64, R65, R67, R68, R70, R72, R73) -/

namespace Sys2Proof.Machine

/-- An admitted request that names the agent's own lease does its own work on it, with the port served. -/
theorem engineTakes_of_own {s : State} {k : AgentNo} {kind : ReqKind} {r : Request} {id : LeaseId} {l : Lease}
    {action : List Byte → Action} {act : Lease → Action} (admitted : Admitted s k kind r) (own : OwnLease s k id l)
    (work : action r.body = onHeldLease k id act) :
    engineTakes kind k action s =
      let q := act l (s.serve (agentPort k))
      .next (replied (agentPort k) r q.2.outcome q.2.body q.1) := by
  rw [engineTakes_admitted action admitted, work, onHeldLease_of_own (s := s.serve (agentPort k)) own]

/-! #### RENEW -/

section Renew

variable {s : State} {l : Lease} {asked : Nat} {id : LeaseId}

theorem renewLease_of_recalled (recalled : l.state = .recalled) :
    renewLease id asked l s = (s, { outcome := .recalled, body := num2 l.remaining }) := by
  simp only [renewLease, recalled, if_true]

variable (live : l.state = .live)
include live

theorem renewLease_of_durationTooLong (long : (s.domain l.domain).maxDuration < newDuration l asked) :
    renewLease id asked l s =
      (s, { outcome := .durationTooLong, body := num2 (s.domain l.domain).maxDuration }) := by
  simp only [renewLease, live, reduceCtorEq, long, if_false, if_true]

variable (fits : newDuration l asked ≤ (s.domain l.domain).maxDuration)
include fits

theorem renewLease_of_badWarn (late : newDuration l asked ≤ l.warn) :
    renewLease id asked l s = (s, { outcome := .badWarn, body := num2 l.warn }) := by
  simp only [renewLease, live, reduceCtorEq, Nat.not_lt.2 fits, late, if_false, if_true]

theorem renewLease_of_checked (warn : l.warn < newDuration l asked) :
    renewLease id asked l s =
      (s.setLease id.slot (.held (renewed l asked)),
        { outcome := .ok
          body := leaseIdBytes id ++ num2 (newDuration l asked) ++ num1 (renewed l asked).renewals }) := by
  simp only [renewLease, live, reduceCtorEq, Nat.not_lt.2 fits, Nat.not_le.2 warn, if_false]

end Renew

theorem execRenew_of_own {s : State} {k : AgentNo} {r : Request} {id : LeaseId} {l : Lease} {asked : Nat}
    (admitted : Admitted s k .renew r) (body : r.body = leaseIdBytes id ++ num2 asked) (small : asked ≤ 65535)
    (own : OwnLease s k id l) :
    exec (.renew k) s =
      let q := renewLease id asked l (s.serve (agentPort k))
      .next (replied (agentPort k) r q.2.outcome q.2.body q.1) := by
  have readAsked : natOfBytes (num2 asked) = asked := natOfBytes_num2 asked (by omega)
  have work : renewAction k r.body = onHeldLease k id (renewLease id (natOfBytes (num2 asked))) :=
    body ▸ renewAction_of_body k id _ _
  rw [readAsked] at work
  exact engineTakes_of_own admitted own work

/-- Settles O23: the lease's state, the domain's maximum and the warn mark are checked in this order, and a lease that
passes is reloaded. -/
theorem renewReloads : Obligations.RenewReloads := by
  intro s k r id l asked admitted body small own new max renewals answers
  have run := execRenew_of_own admitted body small own
  refine ⟨fun recalled => run.trans ?_, fun live long => run.trans ?_, fun live fits late => run.trans ?_,
    fun live fits warn => run.trans ?_⟩
  · rw [renewLease_of_recalled recalled]
  · rw [renewLease_of_durationTooLong (s := s.serve (agentPort k)) live long]
    rfl
  · rw [renewLease_of_badWarn (s := s.serve (agentPort k)) live fits late]
  · rw [renewLease_of_checked (s := s.serve (agentPort k)) live fits warn]
    rfl

/-! #### TRIM -/

theorem trimLease_of_fits {s : State} {id : LeaseId} {l : Lease} {new : Range}
    (fits : trimFits new l.range = true) :
    trimLease id new l s =
      ((reexamine (s.setLease id.slot (.held { l with range := new }))).1,
        { outcome := .ok, body := leaseIdBytes id ++ rangeBytes new }) := by
  simp only [trimLease, fits, if_true]

theorem trimLease_of_outside {s : State} {id : LeaseId} {l : Lease} {new : Range}
    (outside : ¬trimFits new l.range = true) :
    trimLease id new l s = (s, { outcome := .badField, body := rangeBytes l.range }) := by
  rw [trimLease, if_neg outside]

theorem execTrim_of_own {s : State} {k : AgentNo} {r : Request} {id : LeaseId} {l : Lease} {new : Range}
    (admitted : Admitted s k .trim r) (body : r.body = leaseIdBytes id ++ rangeBytes new)
    (base : new.base < unitSpace) (count : new.count < unitSpace) (own : OwnLease s k id l) :
    exec (.trim k) s =
      let q := trimLease id new l (s.serve (agentPort k))
      .next (replied (agentPort k) r q.2.outcome q.2.body q.1) := by
  have work : trimAction k r.body = onHeldLease k id (trimLease id new) := by
    rw [body, trimAction_of_body, rangeOf_rangeBytes new base count]
  exact engineTakes_of_own admitted own work

/-- Settles O24: the new range is compared with the present one, and takes its place where it lies inside. -/
theorem trimNarrows : Obligations.TrimNarrows := by
  intro s k r id l new admitted body base count own inside
  have run := execTrim_of_own admitted body base count own
  have fits : trimFits new l.range = true ↔ inside := trimFits_iff new l.range
  refine ⟨fun outside => run.trans ?_, fun within => run.trans ?_⟩
  · rw [trimLease_of_outside fun h => outside (fits.1 h)]
  · rw [trimLease_of_fits (fits.2 within)]
    rfl

/-! #### DOWNGRADE -/

theorem downgradeLease_of_shared {s : State} {id : LeaseId} {l : Lease} (shared : l.mode = .shared) :
    downgradeLease id l s = (s, refuse .notExclusive) := by
  simp only [downgradeLease, shared, reduceCtorEq, if_false]

theorem downgradeLease_of_exclusive {s : State} {id : LeaseId} {l : Lease} (exclusive : l.mode = .exclusive) :
    downgradeLease id l s =
      ((reexamine (s.setLease id.slot (.held { l with mode := .shared }))).1,
        { outcome := .ok, body := leaseIdBytes id }) := by
  simp only [downgradeLease, exclusive, if_true]

theorem execDowngrade_of_own {s : State} {k : AgentNo} {r : Request} {id : LeaseId} {l : Lease}
    (admitted : Admitted s k .downgrade r) (body : r.body = leaseIdBytes id) (own : OwnLease s k id l) :
    exec (.downgrade k) s =
      let q := downgradeLease id l (s.serve (agentPort k))
      .next (replied (agentPort k) r q.2.outcome q.2.body q.1) :=
  engineTakes_of_own admitted own (body ▸ downgradeAction_of_body k id)

/-- Settles O25: the mode decides. -/
theorem downgradeWeakens : Obligations.DowngradeWeakens := by
  intro s k r id l admitted body own
  have run := execDowngrade_of_own admitted body own
  refine ⟨fun shared => run.trans ?_, fun exclusive => run.trans ?_⟩
  · rw [downgradeLease_of_shared shared]
    rfl
  · rw [downgradeLease_of_exclusive exclusive]
    rfl

/-! #### UPGRADE -/

/-- Check 11 of an UPGRADE names the overlapping lease in the lowest slot (R72). -/
theorem upgradeBlockers_head?_eq_some {s : State} {i j : LeaseIdx} {l m : Lease} :
    (upgradeBlockers s i l).head? = some (j, m) ↔
      s.lease j = .held m ∧ (j ≠ i ∧ overlaps m.range l.range = true)
        ∧ ∀ j' < j, ∀ m', s.lease j' = .held m' → j' ≠ i → overlaps m'.range l.range = false := by
  rw [upgradeBlockers, overlapSearch, List.filter_filter, head?_of_search]
  simp

section Upgrade

variable {s : State} {id : LeaseId} {l : Lease}

theorem upgradeLease_of_recalled (recalled : l.state = .recalled) :
    upgradeLease id l s = (s, { outcome := .recalled, body := num2 l.remaining }) := by
  simp only [upgradeLease, recalled, if_true]

variable (live : l.state = .live)
include live

theorem upgradeLease_of_exclusive (exclusive : l.mode = .exclusive) :
    upgradeLease id l s = (s, refuse .notShared) := by
  simp only [upgradeLease, live, exclusive, reduceCtorEq, if_false, if_true]

variable (shared : l.mode = .shared)
include shared

theorem upgradeLease_of_modeDenied (denied : (s.accessOf l.holder).exclusive = false) :
    upgradeLease id l s = (s, refuse .modeDenied) := by
  simp only [upgradeLease, live, shared, denied, reduceCtorEq, if_false, if_true]

variable (right : (s.accessOf l.holder).exclusive = true)
include right

theorem upgradeLease_of_conflict {j : LeaseIdx} {m : Lease}
    (first : (upgradeBlockers s id.slot l).head? = some (j, m)) :
    upgradeLease id l s =
      (s, { outcome := .conflict, body := leaseIdBytes (leaseIdAt j m) ++ num1 m.holder.val }) := by
  simp only [upgradeLease, live, shared, right, reduceCtorEq, if_false, first]

theorem upgradeLease_of_alone (alone : (upgradeBlockers s id.slot l).head? = none) :
    upgradeLease id l s =
      (s.setLease id.slot (.held { l with mode := .exclusive }),
        { outcome := .ok, body := leaseIdBytes id ++ tokenBytes l.token }) := by
  simp only [upgradeLease, live, shared, right, reduceCtorEq, if_false, alone]

end Upgrade

theorem execUpgrade_of_own {s : State} {k : AgentNo} {r : Request} {id : LeaseId} {l : Lease}
    (admitted : Admitted s k .upgrade r) (body : r.body = leaseIdBytes id) (own : OwnLease s k id l) :
    exec (.upgrade k) s =
      let q := upgradeLease id l (s.serve (agentPort k))
      .next (replied (agentPort k) r q.2.outcome q.2.body q.1) :=
  engineTakes_of_own admitted own (body ▸ upgradeAction_of_body k id)

/-- Settles O26: the lease's state, its mode, the agent's right and the overlap search are checked in this order, and
a lease that passes becomes EXCLUSIVE. -/
theorem upgradeStrengthens : Obligations.UpgradeStrengthens := by
  intro s k r id l admitted body own answers inTheWay
  have run := execUpgrade_of_own admitted body own
  obtain ⟨-, -, rfl⟩ := own
  let u := s.serve (agentPort l.holder)
  have clear {j m} (held : s.lease j = .held m) (free : ¬inTheWay j) (other : j ≠ id.slot) :
      overlaps m.range l.range = false :=
    Bool.eq_false_iff.2 fun overlap => free ⟨other, m, held, overlap⟩
  refine ⟨fun recalled => run.trans ?_, fun live exclusive => run.trans ?_, fun live shared denied => run.trans ?_,
    fun live shared right => ⟨?_, fun free => run.trans ?_⟩⟩
  · rw [upgradeLease_of_recalled recalled]
  · rw [upgradeLease_of_exclusive live exclusive]
    rfl
  · rw [upgradeLease_of_modeDenied (s := u) live shared denied]
    rfl
  · rintro j m held ⟨other, m', held', overlap⟩ lowest
    cases held.symm.trans held'
    have first : (upgradeBlockers u id.slot l).head? = some (j, m) :=
      upgradeBlockers_head?_eq_some.2 ⟨held, ⟨other, overlap⟩, fun i lt n heldi => clear heldi (lowest i lt)⟩
    refine run.trans ?_
    rw [upgradeLease_of_conflict (s := u) live shared right first]
    rfl
  · have alone : (upgradeBlockers u id.slot l).head? = none :=
      upgradeBlockers_head?_eq_none.2 fun j m held => clear held (free j)
    rw [upgradeLease_of_alone (s := u) live shared right alone]
    rfl

end Sys2Proof.Machine

/-! ### The release of RST# (R81, R94, R175) -/

namespace Sys2Proof.Machine

theorem execResetRelease_of_asserted {s : State} (straps : BitVec 2) (h : s.rstAsserted = true) :
    execResetRelease straps s =
      .next { s with rstAsserted := false, clksel := straps, elapsed := 0, refPhase := 0 } :=
  if_pos h

theorem execResetRelease_of_released {s : State} (straps : BitVec 2) (h : s.rstAsserted = false) :
    execResetRelease straps s = .next s :=
  if_neg (Bool.eq_false_iff.1 h)

/-- NOTE# of a detached agent is released (R145). -/
theorem noteAsserted_of_detached {s : State} {k : AgentNo} (h : (s.agent k).state = .detached) :
    noteAsserted s k = false := by
  simp [noteAsserted, h]

theorem agentBits_of_detached {s : State} (h : ∀ k, (s.agent k).state = .detached) (p : PortNo) :
    agentBits s p = 0 := by
  unfold agentBits
  cases portAgent p with
  | none => rfl
  | some k =>
    simp only [noteAsserted_of_detached (h k), h k]
    rfl

/-- The status byte of a port at its reset value, with every agent detached, reads 00h (R165, R175). -/
theorem statusByte_of_resetPins {s : State} {p : PortNo} {q : Port} (port : s.port p = resetPins q)
    (detached : ∀ k, (s.agent k).state = .detached) : statusByte s p = 0 := by
  simp only [statusByte, port, agentBits_of_detached detached]
  rfl

theorem map_resetPins_port {s t : State} (h : t.ports = s.ports.map resetPins) (p : PortNo) :
    t.port p = resetPins (s.port p) := by
  simp [State.port, h]

/-- A falling edge with RST# released captures the status byte and what a COLLECT would shift (R164, R168). -/
theorem selFalls_opened {s : State} {p : PortNo} (released : s.rstAsserted = false) (high : (s.port p).selLow = false) :
    ((selFalls p s).port p).opened = some { status := statusByte s p, reply := collectable (s.port p).slots } := by
  simp [selFalls, released, high]

/-- Settles O5: the release acts only on an asserted RST#, and what the first falling edge finds is the reset value of
its port and of every agent. -/
theorem resetReleaseStartsThePart : Obligations.ResetReleaseStartsThePart := by
  refine ⟨fun s straps => ⟨execResetRelease_of_asserted straps, execResetRelease_of_released straps⟩, ?_⟩
  intro s straps p high
  refine ⟨_, _, _, rfl, execResetRelease_of_asserted straps rfl, rfl, ?_⟩
  let u : State :=
    { State.reset with
      ports := s.ports.map resetPins, draws := s.draws, pending := s.pending, rstAsserted := false, clksel := straps }
  have port : u.port p = resetPins (s.port p) := map_resetPins_port rfl p
  have detached : ∀ k, (u.agent k).state = .detached := fun k => congrArg AgentRecord.state (reset_agent k)
  have captured := selFalls_opened (s := u) (p := p) rfl (by rw [port]; exact high)
  rw [statusByte_of_resetPins port detached, port] at captured
  exact captured

end Sys2Proof.Machine

/-! ### SET_TICK and INTERVAL_EXPIRY (R82, R84, R85) -/

namespace Sys2Proof.Machine

theorem setTickAction_of_period {period : Nat} (small : period ≤ 65535) (s : State) :
    setTickAction (num2 period) s =
      ({ s with tickPeriod := period, elapsed := 0, refPhase := 0, pendingTicks := 0 },
        { outcome := .ok, body := num2 s.tickPeriod }) := by
  rw [setTickAction, natOfBytes_num2 period (by omega)]

/-- Settles O45: the period is read from the body; the expiry is an event of the running timer. -/
theorem setTickAndIntervalExpiry : Obligations.SetTickAndIntervalExpiry := by
  refine ⟨fun s k r period admitted body small => ?_, fun s => ⟨fun stopped => ?_, fun released ticking => ?_⟩⟩
  · have run : exec (.setTick k) s = engineTakes .setTick k setTickAction s := rfl
    rw [run, engineTakes_admitted _ admitted, body, setTickAction_of_period small]
    rfl
  · exact whileTicking_stopped expireInterval stopped
  · exact whileTicking_running expireInterval released ticking

end Sys2Proof.Machine

/-! ### The lease countdown (R88 to R91, R100) -/

namespace Sys2Proof.Machine

/-! #### The four cases of a slot -/

/-- A LIVE lease that its next countdown brings to its non-zero warn mark (R89). -/
abbrev ReachesWarn (l : Lease) : Prop := l.state = .live ∧ l.warn ≠ 0 ∧ l.remaining - 1 = l.warn

/-- A lease counted down by one tick (R88). -/
def countedLease (l : Lease) : Lease := { l with remaining := l.remaining - 1 }

/-- What a slot remembers of a lease that ended in it (R14). -/
def endedMemory (cause : EndCause) (l : Lease) : LeaseMemory :=
  { gen := l.gen, cause := cause, token := l.token, holder := l.holder }

theorem warns_iff (l : Lease) : warns l = true ↔ ReachesWarn l := by
  simp [warns, ReachesWarn, and_assoc]

section Slot

variable {s : State} {i : LeaseIdx} {l : Lease}

theorem countdownSlot_of_free {m : Option LeaseMemory} (free : s.lease i = .free m) : countdownSlot i s = s := by
  simp only [countdownSlot, free]

variable (held : s.lease i = .held l)
include held

theorem countdownSlot_of_warned (left : 1 < l.remaining) (mark : ReachesWarn l) :
    countdownSlot i s = (s.setLease i (.held (countedLease l))).setNotice l.holder
      (storeNotice (.warn (leaseIdAt i l) l.warn) (s.notice l.holder)) := by
  have ⟨_, _, reached⟩ := mark
  rw [← reached]
  simp only [countdownSlot, held, if_neg (Nat.not_le.2 left), if_pos ((warns_iff l).2 mark)]
  rfl

theorem countdownSlot_of_counted (left : 1 < l.remaining) (noMark : ¬ReachesWarn l) :
    countdownSlot i s = s.setLease i (.held (countedLease l)) := by
  simp only [countdownSlot, held, if_neg (Nat.not_le.2 left), if_neg (mt (warns_iff l).1 noMark)]
  rfl

theorem countdownSlot_of_expired (due : l.remaining ≤ 1) (live : l.state = .live) :
    countdownSlot i s = ((s.setLease i (.free (some (endedMemory .expired l)))).setAgent l.holder
      { s.agent l.holder with leaseCount := (s.agent l.holder).leaseCount - 1 }).setNotice l.holder
        (storeNotice (.expired (leaseIdAt i l) l.tag) (s.notice l.holder)) := by
  simp only [countdownSlot, held, if_pos due, live, expireLease, endLease_held _ held]
  rfl

theorem countdownSlot_of_lapsed (due : l.remaining ≤ 1) (recalled : l.state = .recalled) :
    countdownSlot i s = fence l.holder (.graceLapse (leaseIdAt i l))
      ((s.setLease i (.free (some (endedMemory .revoked l)))).setAgent l.holder
        { s.agent l.holder with leaseCount := (s.agent l.holder).leaseCount - 1 }) := by
  simp only [countdownSlot, held, if_pos due, recalled, lapseGrace, endLease_held _ held]
  rfl

end Slot

/-! #### A slot with its generation, and a post -/

theorem State.setLease_leases_self (s : State) (i : LeaseIdx) (c : SlotContent) :
    (s.setLease i c).leases[i] = { s.leases[i] with content := c } := by
  simp [State.setLease]

theorem State.setLease_leases_ne (s : State) {i j : LeaseIdx} (c : SlotContent) (h : j ≠ i) :
    (s.setLease i c).leases[j] = s.leases[j] := by
  simp [State.setLease, Fin.val_ne_of_ne h.symm]

/-- Writing a slot's own content changes nothing. -/
theorem State.setLease_lease_eq_self (s : State) (i : LeaseIdx) : s.setLease i (s.lease i) = s := by
  simp only [setLease, lease]
  congr 1
  exact Vector.set_getElem_self _

/-- A post reaches the queue of the agent it is addressed to, and no other (R139). -/
theorem setNotice_storeNotice_notice {s t : State} (same : ∀ k, t.notice k = s.notice k) (a k : AgentNo)
    (n : Notice) :
    (t.setNotice a (storeNotice n (s.notice a))).notice k =
      if a = k then storeNotice n (s.notice k) else s.notice k := by
  rw [State.setNotice_notice, same]
  by_cases h : a = k
  · rw [if_pos h, if_pos h.symm, h]
  · rw [if_neg h, if_neg (Ne.symm h)]

/-! #### The countdown over slots in which no grace lapses -/

/-- The slot holds no RECALLED lease at its last tick. -/
abbrev NoLapseAt (s : State) (i : LeaseIdx) : Prop :=
  ∀ l, s.lease i = .held l → l.state = .recalled → 1 < l.remaining

/-- What a slot holds after its countdown. -/
def slotAfter : SlotContent → SlotContent
  | .free m => .free m
  | .held l => if l.remaining ≤ 1 then .free (some (endedMemory .expired l)) else .held (countedLease l)

/-- The notice queue of agent k after the countdown at slot i (R89, R90). -/
def queueAfter (k : AgentNo) (i : LeaseIdx) (c : SlotContent) (q : NoticeState) : NoticeState :=
  match c with
  | .free _ => q
  | .held l =>
    if l.holder ≠ k then q
    else if l.remaining ≤ 1 then storeNotice (.expired (leaseIdAt i l) l.tag) q
    else if ReachesWarn l then storeNotice (.warn (leaseIdAt i l) l.warn) q
    else q

/-- The countdown ends a lease of agent k in the slot. -/
def expiresFor (k : AgentNo) : SlotContent → Bool
  | .free _ => false
  | .held l => decide (l.holder = k ∧ l.remaining ≤ 1)

/-- The record of agent k with n leases fewer to its count. -/
def AgentRecord.without (a : AgentRecord) (n : Nat) : AgentRecord := { a with leaseCount := a.leaseCount - n }

/-- State t is s after the countdown of the slots listed, in that order, where no grace lapses. -/
structure CountedDown (s t : State) (slots : List LeaseIdx) : Prop where
  visited : ∀ j ∈ slots, t.leases[j] = { s.leases[j] with content := slotAfter (s.lease j) }
  others : ∀ j, j ∉ slots → t.leases[j] = s.leases[j]
  agents : ∀ k, t.agent k = (s.agent k).without (slots.filter fun i => expiresFor k (s.lease i)).length
  notices : ∀ k, t.notice k = slots.foldl (fun q i => queueAfter k i (s.lease i) q) (s.notice k)
  frame : t = { s with leases := t.leases, agents := t.agents, notices := t.notices }

theorem CountedDown.refl (s : State) : CountedDown s s [] :=
  ⟨nofun, fun _ _ => rfl, fun _ => rfl, fun _ => rfl, rfl⟩

theorem CountedDown.lease_of_other {s t : State} {slots : List LeaseIdx} (down : CountedDown s t slots) {j : LeaseIdx}
    (h : j ∉ slots) : t.lease j = s.lease j :=
  congrArg LeaseSlot.content (down.others j h)

theorem CountedDown.cons {s t u : State} {i : LeaseIdx} {slots : List LeaseIdx} (first : CountedDown s t [i])
    (rest : CountedDown t u slots) (fresh : i ∉ slots) : CountedDown s u (i :: slots) := by
  have other : ∀ j ∈ slots, j ∉ [i] := fun j member h => fresh (List.mem_singleton.1 h ▸ member)
  have same : ∀ j ∈ slots, t.lease j = s.lease j := fun j member => first.lease_of_other (other j member)
  refine ⟨fun j member => ?_, fun j unvisited => ?_, fun k => ?_, fun k => ?_, ?_⟩
  · rcases List.mem_cons.1 member with rfl | later
    · rw [rest.others j fresh]
      exact first.visited j List.mem_cons_self
    · rw [rest.visited j later, first.others j (other j later), same j later]
  · obtain ⟨ne, later⟩ := not_or.1 (mt List.mem_cons.2 unvisited)
    rw [rest.others j later, first.others j (mt List.mem_singleton.1 ne)]
  · have ends : (slots.filter fun i => expiresFor k (t.lease i)) = slots.filter fun i => expiresFor k (s.lease i) :=
      List.filter_congr fun j member => by rw [same j member]
    rw [rest.agents, first.agents, ends, AgentRecord.without, AgentRecord.without, AgentRecord.without, Nat.sub_sub,
      ← List.length_append, ← List.filter_append]
    rfl
  · rw [rest.notices, first.notices]
    refine List.foldl_rel (r := Eq) rfl fun j member q q2 equal => ?_
    rw [same j member, equal]
  · calc
      u = { t with leases := u.leases, agents := u.agents, notices := u.notices } := rest.frame
      _ = { s with leases := u.leases, agents := u.agents, notices := u.notices } := by rw [first.frame]

/-- What the writing of one slot, one agent record and one queue leaves is the countdown of that slot, where the three
records are those of the slot's content. -/
theorem CountedDown.single {s t : State} {i : LeaseIdx}
    (slot : t.leases = (s.setLease i (slotAfter (s.lease i))).leases)
    (agents : ∀ k, t.agent k = (s.agent k).without (expiresFor k (s.lease i)).toNat)
    (notices : ∀ k, t.notice k = queueAfter k i (s.lease i) (s.notice k))
    (frame : t = { s with leases := t.leases, agents := t.agents, notices := t.notices }) : CountedDown s t [i] := by
  refine ⟨fun j member => ?_, fun j other => ?_, fun k => ?_, notices, frame⟩
  · obtain rfl := List.mem_singleton.1 member
    rw [slot, State.setLease_leases_self]
  · rw [slot, State.setLease_leases_ne s _ (mt List.mem_singleton.2 other)]
  · rw [agents]
    cases h : expiresFor k (s.lease i) <;> simp [h]

/-- The countdown at one slot, where it is not a grace lapse. -/
theorem countdownSlot_countedDown {s : State} {i : LeaseIdx} (noLapse : NoLapseAt s i) :
    CountedDown s (countdownSlot i s) [i] := by
  cases held : s.lease i with
  | free m =>
    rw [countdownSlot_of_free held]
    refine .single ?_ (fun k => ?_) (fun k => ?_) rfl
    · have same : slotAfter (s.lease i) = s.lease i := by rw [held, slotAfter]
      rw [same, State.setLease_lease_eq_self]
    · simp [held, expiresFor, AgentRecord.without]
    · simp [held, queueAfter]
  | held l =>
    by_cases due : l.remaining ≤ 1
    · have live : l.state = .live := by
        cases state : l.state with
        | live => rfl
        | recalled => exact absurd due (Nat.not_le.2 (noLapse l held state))
      rw [countdownSlot_of_expired held due live]
      refine .single ?_ (fun k => ?_) (fun k => ?_) rfl
      · simp [held, slotAfter, due]
      · by_cases own : k = l.holder
        · subst own; simp [held, expiresFor, due, AgentRecord.without]
        · simp [held, expiresFor, State.setAgent_agent_ne, own, Ne.symm own, AgentRecord.without]
      · refine (setNotice_storeNotice_notice (s := s) (fun _ => rfl) l.holder k _).trans ?_
        simp [held, queueAfter, due]
    · have left : 1 < l.remaining := Nat.not_le.1 due
      by_cases mark : ReachesWarn l
      · rw [countdownSlot_of_warned held left mark]
        refine .single ?_ (fun k => ?_) (fun k => ?_) rfl
        · simp [held, slotAfter, due]
        · simp [held, expiresFor, due, AgentRecord.without]
        · refine (setNotice_storeNotice_notice (s := s) (fun _ => rfl) l.holder k _).trans ?_
          simp [held, queueAfter, due, if_pos mark]
      · rw [countdownSlot_of_counted held left mark]
        refine .single ?_ (fun k => ?_) (fun k => ?_) rfl
        · simp [held, slotAfter, due]
        · simp [held, expiresFor, due, AgentRecord.without]
        · simp [held, queueAfter, due, mark]

/-- Slot after slot: a slot's countdown leaves the slots to come as they were (R88). -/
theorem countdown_countedDown : ∀ {slots : List LeaseIdx} {s : State}, slots.Nodup →
    (∀ i ∈ slots, NoLapseAt s i) → CountedDown s (slots.foldl (fun t i => countdownSlot i t) s) slots
  | [], s, _, _ => .refl s
  | i :: slots, s, distinct, noLapse => by
    obtain ⟨fresh, distinct⟩ := List.nodup_cons.1 distinct
    have first := countdownSlot_countedDown (noLapse i List.mem_cons_self)
    refine first.cons (countdown_countedDown distinct fun j member l held => ?_) fresh
    have same : (countdownSlot i s).lease j = s.lease j :=
      first.lease_of_other fun h => fresh (List.mem_singleton.1 h ▸ member)
    exact noLapse j (List.mem_cons_of_mem i member) l (same ▸ held)

theorem leaseCountdown_countedDown {s : State} (noLapse : ∀ i, NoLapseAt s i) :
    CountedDown s (leaseCountdown s) (List.finRange 64) :=
  countdown_countedDown (List.nodup_finRange 64) fun i _ => noLapse i

/-- Settles O47: a slot's four cases; and where no grace lapses, no slot's countdown touches another slot, so the whole
is read off slot by slot. -/
theorem leaseCountdownVisitsEverySlot : Obligations.LeaseCountdownVisitsEverySlot := by
  refine ⟨fun s => rfl, fun s i m => countdownSlot_of_free, fun s i l held => ?_, fun s noLapse => ?_⟩
  · exact ⟨countdownSlot_of_warned held, countdownSlot_of_counted held, countdownSlot_of_expired held,
      countdownSlot_of_lapsed held⟩
  · have down := leaseCountdown_countedDown noLapse
    refine ⟨fun i m free => ?_, fun i l held left => ?_, fun i l held due => ?_,
      fun k => ⟨down.agents k, down.notices k⟩, down.frame⟩
    · rw [down.visited i (List.mem_finRange i), free, slotAfter, ← free]
      rfl
    · rw [down.visited i (List.mem_finRange i), held, slotAfter, if_neg (Nat.not_le.2 left)]
      rfl
    · rw [down.visited i (List.mem_finRange i), held, slotAfter, if_pos due]
      rfl

end Sys2Proof.Machine

/-! ### EVICT (R108, R109) -/

namespace Sys2Proof.Machine

theorem agentOf_of_high {n : Nat} (high : 8 ≤ n) (byte : n < 256) : agentOf (BitVec.ofNat 8 n) = none := by
  have value : (BitVec.ofNat 8 n).toNat = n := Nat.mod_eq_of_lt byte
  rw [agentOf, dif_neg (by omega)]

theorem evictAction_of_high {n : Nat} (high : 8 ≤ n) (byte : n < 256) (s : State) :
    evictAction (num1 n) s = (s, refuse .badField) := by
  simp only [num1_eq, evictAction, agentOf_of_high high byte]

section Evict

variable {s : State} {j : AgentNo}

theorem evictAction_of_detached (h : (s.agent j).state = .detached) :
    evictAction (num1 j.val) s = (s, { outcome := .notAttached, body := num1 j.val }) := by
  simp only [num1_eq, evictAction, agentOf_num1, h]

theorem evictAction_of_fenced (h : (s.agent j).state = .fenced) :
    evictAction (num1 j.val) s = (s, { outcome := .fenced, body := num1 j.val }) := by
  simp only [num1_eq, evictAction, agentOf_num1, h]

theorem evictAction_of_attached (h : (s.agent j).state = .attached) : evictAction (num1 j.val) s = evictAgent j s := by
  simp only [num1_eq, evictAction, agentOf_num1, h]

end Evict

/-- Settles O30: the agent number is read from the body, and the state of the agent it names decides. Taking the
request marks only the port served, so the named agent, its leases and its waiters are those of the state before. -/
theorem evictFencesTheAgent : Obligations.EvictFencesTheAgent := by
  intro s k r admitted
  have run : exec (.evict k) s = engineTakes .evict k evictAction s := rfl
  rw [engineTakes_admitted _ admitted] at run
  refine ⟨fun n high byte body => ?_, fun j body => ⟨fun detached => ?_, fun fenced => ?_, fun attached => ?_⟩⟩ <;>
    rw [run, body]
  · rw [evictAction_of_high high byte]
    rfl
  · rw [evictAction_of_detached (s := s.serve (agentPort k)) detached]
  · rw [evictAction_of_fenced (s := s.serve (agentPort k)) fenced]
  · rw [evictAction_of_attached (s := s.serve (agentPort k)) attached]
    rfl

end Sys2Proof.Machine

/-! ### The common checks (R115 to R118) -/

namespace Sys2Proof.Machine

/-! #### A refused request is answered, and nothing else is done -/

theorem noticeRequest_of_ready {s : State} {k : AgentNo} {kind : ReqKind} {r : Request} (notice : IsNoticeRequest kind)
    (named : r.kind = kind.code) (ready : NoticeReady s k r) : noticeRequest s k = some r := by
  obtain ⟨released, waits⟩ := ready
  have taken : isNoticeKind r.kind = true := by
    simp only [List.mem_cons, List.not_mem_nil, or_false] at notice
    rcases notice with rfl | rfl | rfl <;> rw [named] <;> rfl
  simp [noticeRequest, released, waits, pendingRequest, taken]

section Refused

variable {s : State} {k : AgentNo} {kind : ReqKind} {r : Request} {a : Answer}

theorem engineTakes_of_refused (act : List Byte → Action) (ready : EngineReady s (agentPort k) r)
    (named : r.kind = kind.code) (refusal : commonRefusal kind k r s = some a) :
    engineTakes kind k act s = .next (replied (agentPort k) r a.outcome a.body (s.serve (agentPort k))) := by
  simp only [engineTakes, engineRequest_of_ready ready, named, if_true, refusal]
  rfl

theorem noticeUnitTakes_of_refused (act : List Byte → Action) (notice : IsNoticeRequest kind) (ready : NoticeReady s k r)
    (named : r.kind = kind.code) (refusal : commonRefusal kind k r s = some a) :
    noticeUnitTakes kind k act s = .next (replied (agentPort k) r a.outcome a.body s) := by
  simp only [noticeUnitTakes, noticeRequest_of_ready notice named ready, named, if_true, refusal]
  rfl

theorem checkPortTakes_of_badField (act : List Byte → Action) (ready : EngineReady s checkPort r)
    (named : r.kind = kind.code) (length : r.body.length ≠ kind.bodyLength) :
    checkPortTakes kind act s = .next (replied checkPort r .badField [] (s.serve checkPort)) := by
  simp only [checkPortTakes, engineRequest_of_ready ready, named, if_true, if_pos length]
  rfl

theorem execUnknownRequest_of_unknown {p : PortNo} (ready : EngineReady s p r) (unknown : unknownKind p r.kind = true) :
    execUnknownRequest p s = .next (replied p r .unknownRequest [] (s.serve p)) := by
  simp only [execUnknownRequest, engineRequest_of_ready ready, unknown, if_true]
  rfl

end Refused

/-! #### Check 1: the kinds a port may send (R116, R117) -/

theorem checkPortMaySend_eq_true {kind : Byte} :
    checkPortMaySend kind = true ↔ kind ∈ [(0x16 : Byte), 0x17, 0x18] := by
  simp only [checkPortMaySend, Bool.and_eq_true, decide_eq_true_eq, List.mem_cons, List.not_mem_nil, or_false]
  bv_omega

theorem agentMaySend_eq_false {kind : Byte} : agentMaySend kind = false ↔ kind = 0 ∨ 0x16 < kind := by
  simp only [agentMaySend, Bool.and_eq_false_iff, decide_eq_false_iff_not]
  bv_omega

theorem unknownKind_eq_true {p : PortNo} {kind : Byte} :
    unknownKind p kind = true ↔
      (p = checkPort → kind ∉ [(0x16 : Byte), 0x17, 0x18]) ∧ (p ≠ checkPort → kind = 0 ∨ 0x16 < kind) := by
  rw [unknownKind, ← checkPortMaySend_eq_true, ← agentMaySend_eq_false]
  by_cases check : p = checkPort <;> simp [check]

/-- Settles O14: the arbiter hands the request over, check 1 refuses its kind, or its length does. -/
theorem unknownKindsAreRefused : Obligations.UnknownKindsAreRefused := by
  intro s r
  refine ⟨fun p ready check agent => execUnknownRequest_of_unknown ready (unknownKind_eq_true.2 ⟨check, agent⟩), ?_⟩
  intro kc three ready named length
  simp only [List.mem_cons, List.not_mem_nil, or_false] at three
  rcases three with rfl | rfl | rfl
  · exact checkPortTakes_of_badField (fun _ => checkStatusAction) ready named length
  · exact checkPortTakes_of_badField checkTokenAction ready named length
  · exact checkPortTakes_of_badField checkAgentAction ready named length

/-! #### Checks 2 to 5 (R115, R116, R118) -/

theorem skipsEpoch_iff {kind : ReqKind} : kind.skipsEpoch = true ↔ SkipsEpoch kind := by
  cases kind <;> decide

theorem isAdmin_iff {kind : ReqKind} : kind.isAdmin = true ↔ IsAdminKind kind := by
  cases kind <;> decide

section StateCheck

variable {kind : ReqKind} {a : AgentRecord}

theorem stateAdmits_fenced : stateAdmits kind .fenced = kind.admittedFenced := by
  cases kind <;> rfl

theorem stateRefusal_of_admitted (admits : stateAdmits kind a.state = true) : stateRefusal kind a = none := by
  unfold stateRefusal
  cases state : a.state <;> rw [state] at admits
  case detached =>
    rw [stateAdmits, ← Bool.decide_or, decide_eq_true_eq] at admits
    exact if_pos admits
  case attached =>
    simp only [stateAdmits, ne_eq, Bool.and_eq_true, decide_eq_true_eq] at admits
    exact (if_neg admits.1).trans (if_neg admits.2)
  case fenced => exact if_pos (stateAdmits_fenced ▸ admits)

theorem stateRefusal_of_detached (refused : stateAdmits kind a.state ≠ true) (state : a.state = .detached) :
    stateRefusal kind a = some (refuse .notAttached) := by
  rw [state, stateAdmits, ← Bool.decide_or, ne_eq, decide_eq_true_eq] at refused
  simp only [stateRefusal, state, if_neg refused]

theorem stateRefusal_of_fenced (refused : stateAdmits kind a.state ≠ true) (state : a.state = .fenced) :
    stateRefusal kind a = some (refuse .fenced) := by
  rw [state, stateAdmits_fenced] at refused
  simp only [stateRefusal, state, if_neg refused]

theorem stateRefusal_attach_of_attached (state : a.state = .attached) :
    stateRefusal .attach a = some { outcome := .alreadyAttached, body := num2 a.epoch.toNat } := by
  rw [stateRefusal, state]
  rfl

theorem stateRefusal_resync_of_attached (state : a.state = .attached) :
    stateRefusal .resync a = some { outcome := .notFenced, body := num2 a.epoch.toNat } := by
  rw [stateRefusal, state]
  rfl

end StateCheck

section CommonRefusal

variable {s : State} {k : AgentNo} {kind : ReqKind} {r : Request}

theorem commonRefusal_of_length (length : r.body.length ≠ kind.bodyLength) :
    commonRefusal kind k r s = some (refuse .badField) :=
  if_pos length

variable (length : r.body.length = kind.bodyLength)
include length

theorem commonRefusal_of_state {a : Answer} (refusal : stateRefusal kind (s.agent k) = some a) :
    commonRefusal kind k r s = some a := by
  simp only [commonRefusal, length, ne_eq, not_true_eq_false, if_false, refusal]

variable (admits : stateAdmits kind (s.agent k).state = true)
include admits

theorem commonRefusal_of_staleEpoch (stale : ¬(SkipsEpoch kind ∨ r.epoch = (s.agent k).epoch)) :
    commonRefusal kind k r s = some (refuse .staleEpoch) := by
  rw [← skipsEpoch_iff, not_or, Bool.not_eq_true] at stale
  simp only [commonRefusal, length, ne_eq, not_true_eq_false, if_false, stateRefusal_of_admitted admits]
  rw [if_pos stale]

theorem commonRefusal_of_notAdmin (current : SkipsEpoch kind ∨ r.epoch = (s.agent k).epoch) (needed : IsAdminKind kind)
    (missing : (s.accessOf k).admin = false) : commonRefusal kind k r s = some (refuse .notAdmin) := by
  have fresh : ¬(kind.skipsEpoch = false ∧ r.epoch ≠ (s.agent k).epoch) := by
    rwa [← Bool.not_eq_true, skipsEpoch_iff, ← not_or, Decidable.not_not]
  simp only [commonRefusal, length, ne_eq, not_true_eq_false, if_false, stateRefusal_of_admitted admits]
  rw [if_neg fresh, if_pos ⟨isAdmin_iff.2 needed, missing⟩]

end CommonRefusal

/-! #### The command of every kind applies them -/

section CommandOf

variable {k : AgentNo} {kind : ReqKind} {c : Instr} (command : commandOf k kind = some c)
include command

theorem exec_of_notice (notice : IsNoticeRequest kind) : ∃ act, ∀ s, exec c s = noticeUnitTakes kind k act s := by
  simp only [List.mem_cons, List.not_mem_nil, or_false] at notice
  rcases notice with rfl | rfl | rfl <;> cases command
  · exact ⟨fun _ => noticeReadAction k, fun _ => rfl⟩
  · exact ⟨noticeAckAction k, fun _ => rfl⟩
  · exact ⟨setNoticeMaskAction k, fun _ => rfl⟩

/-- Every other kind that has a command goes to the engine, STATUS through the agent of its port (R170). -/
theorem exec_of_engine (engine : ¬IsNoticeRequest kind) : ∃ act, ∀ s, exec c s = engineTakes kind k act s := by
  cases kind
  case checkToken | checkAgent => cases command
  case noticeRead | noticeAck | setNoticeMask => exact absurd (by decide) engine
  case attach => cases command; exact ⟨fun _ => attachAction k, fun _ => rfl⟩
  case detach => cases command; exact ⟨fun _ => detachAction k, fun _ => rfl⟩
  case resync => cases command; exact ⟨fun _ => resyncAction k, fun _ => rfl⟩
  case queryNext => cases command; exact ⟨fun _ => queryNextAction k, fun _ => rfl⟩
  case status =>
    cases command
    exact ⟨fun _ => agentStatusAction k, fun s => by simp only [exec, execStatus, portAgent_agentPort]⟩
  all_goals
    cases command
    exact ⟨_, fun _ => rfl⟩

/-- A request that the common checks refuse is answered so, by the engine or by the notice unit (R116, R117). -/
theorem exec_of_refused {s : State} {r : Request} {a : Answer} (named : r.kind = kind.code)
    (ready : if IsNoticeRequest kind then NoticeReady s k r else EngineReady s (agentPort k) r)
    (refusal : commonRefusal kind k r s = some a) :
    exec c s = .next (replied (agentPort k) r a.outcome a.body
      (if IsNoticeRequest kind then s else s.serve (agentPort k))) := by
  by_cases notice : IsNoticeRequest kind
  · obtain ⟨act, run⟩ := exec_of_notice command notice
    rw [if_pos notice] at ready ⊢
    rw [run, noticeUnitTakes_of_refused act notice ready named refusal]
  · obtain ⟨act, run⟩ := exec_of_engine command notice
    rw [if_neg notice] at ready ⊢
    rw [run, engineTakes_of_refused act ready named refusal]

end CommandOf

/-- Settles O15: the checks stand in one function that both units apply, and each clause is one branch of it. -/
theorem commonChecksInOrder : Obligations.CommonChecksInOrder := by
  intro s k kind c r command named ready epoch refused lengthOk stateOk epochOk
  have refusal {a : Answer} (h : commonRefusal kind k r s = some a) : refused a.outcome a.body :=
    exec_of_refused command named ready h
  refine ⟨fun long => ?_, fun length state => ⟨fun detached => ?_, fun fenced => ?_, ?_, ?_⟩,
    fun length state stale => ?_, fun length state current needed missing => ?_⟩
  · exact refusal (commonRefusal_of_length long)
  · exact refusal (commonRefusal_of_state length (stateRefusal_of_detached state detached))
  · exact refusal (commonRefusal_of_state length (stateRefusal_of_fenced state fenced))
  · rintro attached rfl
    exact refusal (commonRefusal_of_state length (stateRefusal_attach_of_attached attached))
  · rintro attached rfl
    exact refusal (commonRefusal_of_state length (stateRefusal_resync_of_attached attached))
  · exact refusal (commonRefusal_of_staleEpoch length state stale)
  · exact refusal (commonRefusal_of_notAdmin length state current needed missing)

end Sys2Proof.Machine

/-! ### ATTACH and RESYNC (R119, R121, R147) -/

namespace Sys2Proof.Machine

/-- Settles O31: the common checks leave only the agent state that each request is for, and the action sets the fields
of the new epoch. -/
theorem attachAndResyncStartAnEpoch : Obligations.AttachAndResyncStartAnEpoch := by
  intro s k r a
  constructor
  · intro admitted
    have run : exec (.attach k) s = engineTakes .attach k (fun _ => attachAction k) s := rfl
    rw [run, engineTakes_admitted _ admitted]
    rfl
  · intro admitted
    have run : exec (.resync k) s = engineTakes .resync k (fun _ => resyncAction k) s := rfl
    rw [run, engineTakes_admitted _ admitted]
    rfl

end Sys2Proof.Machine

/-! ### SET_ACCESS (R124, R125) -/

namespace Sys2Proof.Machine

/-! #### The body -/

theorem toNat_of_agentOf {b : Byte} {j : AgentNo} (h : agentOf b = some j) : b.toNat < 8 := by
  unfold agentOf at h
  split at h
  · next low => exact low
  · cases h

theorem toNat_of_yesNoOf {b : Byte} {v : Bool} (h : yesNoOf b = some v) : b.toNat ≤ 1 := by
  refine Nat.not_lt.1 fun high => ?_
  obtain ⟨-, -, none⟩ := twoCodes_none high
  cases none.symm.trans h

/-- What check 6 of R124 asks of the bytes of a body. -/
theorem accessFieldsOf_eq_some {body : List Byte} {p : AgentNo × AccessRecord} (h : accessFieldsOf body = some p) :
    (body.getD 0 0).toNat < 8 ∧ (body.getD 3 0).toNat ≤ 1 ∧ (body.getD 4 0).toNat ≤ 1
      ∧ (1 ≤ (body.getD 5 0).toNat ∧ (body.getD 5 0).toNat ≤ 64 ∧ 1 ≤ (body.getD 6 0).toNat ∧ (body.getD 6 0).toNat ≤ 8)
      ∧ (body.getD 7 0).toNat ≤ 1 := by
  unfold accessFieldsOf at h
  split at h
  · split at h
    · next agent exclusive urgent admin =>
      split at h
      · next limits =>
        exact ⟨toNat_of_agentOf agent, toNat_of_yesNoOf exclusive, toNat_of_yesNoOf urgent, limits,
          toNat_of_yesNoOf admin⟩
      · cases h
    · cases h
  · cases h

/-- The named agent and the new record are read back from the body (R124). -/
theorem accessFieldsOf_accessBytes (j : AgentNo) {a : AccessRecord} (lease1 : 1 ≤ a.leaseLimit)
    (lease64 : a.leaseLimit ≤ 64) (wait1 : 1 ≤ a.waitLimit) (wait8 : a.waitLimit ≤ 8) :
    accessFieldsOf (num1 j.val ++ accessBytes a) = some (j, a) := by
  have readLease : (BitVec.ofNat 8 a.leaseLimit).toNat = a.leaseLimit := Nat.mod_eq_of_lt (by omega)
  have readWait : (BitVec.ofNat 8 a.waitLimit).toNat = a.waitLimit := Nat.mod_eq_of_lt (by omega)
  simp only [accessBytes, num1, num2, yesNo, List.cons_append, List.nil_append, accessFieldsOf, agentOf_num1,
    yesNoOf_yesNo, readLease, readWait, tag_of_num2, lease1, lease64, wait1, wait8, and_self, if_true]

/-! #### What agent k holds -/

theorem usesDomain_iff {s : State} {k : AgentNo} {d : DomainNo} :
    usesDomain s k d = true ↔
      (∃ i l, s.lease i = .held l ∧ l.holder = k ∧ l.domain = d)
        ∨ ∃ w ∈ s.waiters, w.claim.agent = k ∧ w.claim.domain = d := by
  simp [usesDomain, mem_liveLeases]

theorem holdsExclusive_iff {s : State} {k : AgentNo} :
    holdsExclusive s k = true ↔
      (∃ i l, s.lease i = .held l ∧ l.holder = k ∧ l.mode = .exclusive)
        ∨ ∃ w ∈ s.waiters, w.claim.agent = k ∧ w.claim.mode = .exclusive := by
  simp [holdsExclusive, mem_liveLeases]

/-- Agent k uses domain d, and a mask leaves it out (check 8 of R124). -/
def LeftOut (s : State) (k : AgentNo) (mask : BitVec 16) (d : DomainNo) : Prop :=
  ((∃ i l, s.lease i = .held l ∧ l.holder = k ∧ l.domain = d) ∨ ∃ w ∈ s.waiters, w.claim.agent = k ∧ w.claim.domain = d)
    ∧ mask.getLsbD d.val = false

theorem leftOut_iff {s : State} {k : AgentNo} {mask : BitVec 16} {d : DomainNo} :
    LeftOut s k mask d ↔ (usesDomain s k d && !mask.getLsbD d.val) = true := by
  simp only [LeftOut, Bool.and_eq_true, usesDomain_iff, Bool.not_eq_true']

/-- Check 8 of R124 names the lowest domain left out. -/
theorem domainLeftOut_eq_some {s : State} {k : AgentNo} {mask : BitVec 16} {d : DomainNo} :
    domainLeftOut s k mask = some d ↔ LeftOut s k mask d ∧ ∀ e < d, ¬LeftOut s k mask e := by
  simp only [domainLeftOut, find?_finRange_eq_some, leftOut_iff, Bool.not_eq_true]

theorem domainLeftOut_eq_none_of_not_leftOut {s : State} {k : AgentNo} {mask : BitVec 16}
    (covers : ∀ d, ¬LeftOut s k mask d) : domainLeftOut s k mask = none :=
  domainLeftOut_eq_none.2
    ⟨fun i l held own => Bool.of_not_eq_false fun left => covers l.domain ⟨.inl ⟨i, l, held, own, rfl⟩, left⟩,
      fun w waits own => Bool.of_not_eq_false fun left => covers w.claim.domain ⟨.inr ⟨w, waits, own, rfl⟩, left⟩⟩

/-! #### Checks 7 to 9, each with those before it passed -/

theorem execSetAccess_admitted {s : State} {k : AgentNo} {r : Request} (admitted : Admitted s k .setAccess r) :
    exec (.setAccess k) s =
      let q := setAccessAction r.body (s.serve (agentPort k))
      .next (replied (agentPort k) r q.2.outcome q.2.body q.1) :=
  engineTakes_admitted setAccessAction admitted

/-- Check 6 of R124 refuses a body with a field out of bounds. -/
theorem execSetAccess_of_badField {s : State} {k : AgentNo} {r : Request} (admitted : Admitted s k .setAccess r)
    (bad : 7 < (r.body.getD 0 0).toNat ∨ 1 < (r.body.getD 3 0).toNat ∨ 1 < (r.body.getD 4 0).toNat
      ∨ (r.body.getD 5 0).toNat = 0 ∨ 64 < (r.body.getD 5 0).toNat ∨ (r.body.getD 6 0).toNat = 0
      ∨ 8 < (r.body.getD 6 0).toNat ∨ 1 < (r.body.getD 7 0).toNat) :
    exec (.setAccess k) s = .next (replied (agentPort k) r .badField [] (s.serve (agentPort k))) := by
  have fields : accessFieldsOf r.body = none := Option.eq_none_iff_forall_ne_some.2 fun p some => by
    obtain ⟨agent, exclusive, urgent, limits, admin⟩ := accessFieldsOf_eq_some some
    omega
  rw [execSetAccess_admitted admitted, setAccessAction, fields]
  rfl

section Checks

variable {s : State} {j : AgentNo} {a : AccessRecord} {body : List Byte} (fields : accessFieldsOf body = some (j, a))
include fields

theorem setAccessAction_of_limitBelowUse
    (exceeds : ¬((s.agent j).leaseCount ≤ a.leaseLimit ∧ (s.agent j).waitCount ≤ a.waitLimit)) :
    setAccessAction body s =
      (s, { outcome := .limitBelowUse, body := num1 (s.agent j).leaseCount ++ num1 (s.agent j).waitCount }) := by
  rw [Decidable.not_and_iff_not_or_not, Nat.not_le, Nat.not_le] at exceeds
  simp only [setAccessAction, fields, if_pos exceeds]

variable (within : (s.agent j).leaseCount ≤ a.leaseLimit ∧ (s.agent j).waitCount ≤ a.waitLimit)
include within

theorem setAccessAction_of_domainInUse {d : DomainNo} (left : domainLeftOut s j a.mask = some d) :
    setAccessAction body s = (s, { outcome := .domainInUse, body := num1 d.val }) := by
  simp only [setAccessAction, fields, Nat.not_lt.2 within.1, Nat.not_lt.2 within.2, or_self, if_false, left]

variable (covers : domainLeftOut s j a.mask = none)
include covers

theorem setAccessAction_of_modeDenied (withdraws : (s.accessOf j).exclusive = true ∧ a.exclusive = false)
    (holds : holdsExclusive s j = true) : setAccessAction body s = (s, refuse .modeDenied) := by
  simp only [setAccessAction, fields, Nat.not_lt.2 within.1, Nat.not_lt.2 within.2, or_self, if_false, covers]
  rw [if_pos ⟨withdraws.1, withdraws.2, holds⟩]

theorem setAccessAction_of_checked
    (keeps : ¬(((s.accessOf j).exclusive = true ∧ a.exclusive = false) ∧ holdsExclusive s j = true)) :
    setAccessAction body s = replaceAccess j a s := by
  rw [and_assoc] at keeps
  simp only [setAccessAction, fields, Nat.not_lt.2 within.1, Nat.not_lt.2 within.2, or_self, if_false, covers,
    if_neg keeps]

end Checks

/-! #### The effect (R125) -/

theorem replaceAccess_of_not_raised {s : State} {j : AgentNo} {a : AccessRecord}
    (same : a.leaseLimit ≤ (s.accessOf j).leaseLimit) :
    replaceAccess j a s = (s.setAccessOf j a, { outcome := .ok, body := num1 j.val ++ accessBytes a ++ num1 0 }) := by
  simp only [replaceAccess, if_neg (Nat.not_lt.2 same)]

theorem replaceAccess_of_raised {s : State} {j : AgentNo} {a : AccessRecord}
    (raised : (s.accessOf j).leaseLimit < a.leaseLimit) :
    replaceAccess j a s =
      ((reexamine (s.setAccessOf j a)).1,
        { outcome := .ok, body := num1 j.val ++ accessBytes a ++ num1 (reexamine (s.setAccessOf j a)).2 }) := by
  simp only [replaceAccess, if_pos raised]

/-- Settles O33: the record is read back from the body, checks 6 to 9 each come with those before them passed, and the
lease limit decides whether the wait list is walked. Taking the request marks only the port served, so the named agent
and what it holds are those of the state before. -/
theorem setAccessReplacesTheRecord : Obligations.SetAccessReplacesTheRecord := by
  refine ⟨fun s k r admitted => execSetAccess_of_badField admitted, ?_⟩
  intro s k j r a admitted body lease1 lease64 wait1 wait8 refused limitsOk uses leftOut exclusive withdraws set
  have fields : accessFieldsOf r.body = some (j, a) := body ▸ accessFieldsOf_accessBytes j lease1 lease64 wait1 wait8
  have covered (covers : ∀ d, ¬leftOut d) : domainLeftOut (s.serve (agentPort k)) j a.mask = none :=
    domainLeftOut_eq_none_of_not_leftOut covers
  have run := execSetAccess_admitted admitted
  have refusal {o : ReplyOutcome} {carried : List Byte}
      (h : setAccessAction r.body (s.serve (agentPort k)) = (s.serve (agentPort k), { outcome := o, body := carried })) :
      refused o carried := by
    rw [h] at run
    exact run
  refine ⟨fun exceeds => ?_, fun within d left lowest => ?_, fun within covers withdrawn holds => ?_,
    fun within covers keeps => ?_⟩
  · exact refusal (setAccessAction_of_limitBelowUse fields exceeds)
  · exact refusal (setAccessAction_of_domainInUse (s := s.serve (agentPort k)) fields within
      (domainLeftOut_eq_some.2 ⟨left, lowest⟩))
  · exact refusal (setAccessAction_of_modeDenied fields within (covered covers) withdrawn (holdsExclusive_iff.2 holds))
  · have kept := fun h => keeps ⟨And.left h, holdsExclusive_iff.1 (And.right h)⟩
    rw [setAccessAction_of_checked (s := s.serve (agentPort k)) fields within (covered covers) kept] at run
    refine ⟨fun same => ?_, fun raised => ?_⟩
    · rw [replaceAccess_of_not_raised (s := s.serve (agentPort k)) same] at run
      exact run
    · rw [replaceAccess_of_raised (s := s.serve (agentPort k)) raised] at run
      exact run

end Sys2Proof.Machine

/-! ### The fifth law along a step (R128) -/

namespace Sys2Proof.Machine

/-- Settles O57: a step is a sequence of moves, and no move takes a record out of its domain or its domain out of the
agent's mask (move_keeps_fifthLaw). -/
theorem everyStepKeepsTheFifthLaw : Obligations.EveryStepKeepsTheFifthLaw :=
  fun _ _ law h => (step_moves h).keep move_keeps_fifthLaw law

end Sys2Proof.Machine

/-! ### CONFIG_DOMAIN (R130 to R133) -/

namespace Sys2Proof.Machine

/-! #### The body -/

theorem toNat_of_domainOfByte {b : Byte} {d : DomainNo} (h : domainOfByte b = some d) : b.toNat < 16 := by
  unfold domainOfByte at h
  split at h
  · next low => exact low
  · cases h

/-- What check 6 of R130 asks of the bytes of a body. -/
theorem domainFieldsOf_eq_some {body : List Byte} {p : DomainNo × DomainRecord} (h : domainFieldsOf body = some p) :
    (body.getD 0 0).toNat < 16 ∧ (body.getD 12 0).toNat ≤ 1 := by
  unfold domainFieldsOf at h
  split at h
  · split at h
    · next domain enabled => exact ⟨toNat_of_domainOfByte domain, toNat_of_yesNoOf enabled⟩
    · cases h
  · cases h

/-- Check 7 of R130: the ranges and relations of a new record. -/
abbrev DomainFieldsFit (r : DomainRecord) : Prop :=
  r.bound ≤ unitSpace ∧ 1 ≤ r.defaultDuration ∧ 1 ≤ r.maxDuration ∧ 1 ≤ r.recallGrace
    ∧ r.defaultDuration ≤ r.maxDuration ∧ r.defaultWarn < r.defaultDuration

/-- A record whose fields fit their widths. -/
structure DomainWidths (r : DomainRecord) : Prop where
  bound : r.bound < 16777216
  defaultDuration : r.defaultDuration ≤ 65535
  maxDuration : r.maxDuration ≤ 65535
  defaultWarn : r.defaultWarn ≤ 65535
  recallGrace : r.recallGrace ≤ 65535

/-- The domain and the new record are read back from the body, if the record passes check 7 (R130). -/
theorem domainFieldsOf_domainBytes (d : DomainNo) {r : DomainRecord} (widths : DomainWidths r) :
    domainFieldsOf (num1 d.val ++ domainBytes r) = if DomainFieldsFit r then some (d, r) else none := by
  have pair {n : Nat} (le : n ≤ 65535) : natOfBytes [BitVec.ofNat 8 (n / 256), BitVec.ofNat 8 n] = n :=
    natOfBytes_num2 n (Nat.lt_succ_of_le le)
  have triple : natOfBytes [BitVec.ofNat 8 (r.bound / 65536), BitVec.ofNat 8 (r.bound / 256), BitVec.ofNat 8 r.bound]
      = r.bound := natOfBytes_num3 _ widths.bound
  simp only [domainBytes, num1, num2, num3, yesNo, List.cons_append, List.nil_append, domainFieldsOf, domainOfByte_num1,
    yesNoOf_yesNo, triple, pair widths.defaultDuration, pair widths.maxDuration, pair widths.defaultWarn,
    pair widths.recallGrace]

/-! #### What domain d holds -/

theorem domainIdle_iff_counts {s : State} {d : DomainNo} :
    domainIdle s d = true ↔ leasesIn s d = 0 ∧ waitersIn s d = 0 := by
  simp only [domainIdle, Bool.and_eq_true, decide_eq_true_eq]

theorem busyDomain_of_busy {s : State} {d : DomainNo} {bound : Nat} (busy : ¬domainIdle s d = true) :
    busyDomain s d bound = some d :=
  if_pos (Bool.eq_false_iff.2 busy)

/-- A bound that moves also moves the first unit of the next domain, which must be idle too (R132). -/
theorem busyDomain_of_next_busy {s : State} {d : DomainNo} {bound : Nat} (idle : domainIdle s d = true)
    (moves : bound ≠ (s.domain d).bound ∧ d ≠ 15) (busy : ¬domainIdle s (d + 1) = true) :
    busyDomain s d bound = some (d + 1) := by
  rw [busyDomain, if_neg (Bool.not_eq_false _ ▸ idle), if_pos ⟨moves.1, moves.2, Bool.eq_false_iff.2 busy⟩]

theorem busyDomain_of_idle {s : State} {d : DomainNo} {bound : Nat} (idle : domainIdle s d = true)
    (next : bound ≠ (s.domain d).bound ∧ d ≠ 15 → domainIdle s (d + 1) = true) : busyDomain s d bound = none := by
  refine busyDomain_eq_none.2 ⟨idle, ?_⟩
  by_cases same : bound = (s.domain d).bound
  · exact .inl same
  · by_cases last : d = 15
    · exact .inr (.inl last)
    · exact .inr (.inr (next ⟨same, last⟩))

/-! #### Checks 8 and 9, each with those before it passed -/

theorem execConfigDomain_admitted {s : State} {k : AgentNo} {r : Request} (admitted : Admitted s k .configDomain r) :
    exec (.configDomain k) s =
      let q := configDomainAction r.body (s.serve (agentPort k))
      .next (replied (agentPort k) r q.2.outcome q.2.body q.1) :=
  engineTakes_admitted configDomainAction admitted

theorem configDomainAction_of_badField {s : State} {body : List Byte} (fields : domainFieldsOf body = none) :
    configDomainAction body s = (s, refuse .badField) := by
  simp only [configDomainAction, fields]

section Checks

variable {s : State} {d : DomainNo} {new : DomainRecord} {body : List Byte}
  (fields : domainFieldsOf body = some (d, new))
include fields

theorem configDomainAction_of_badOrder (disorder : ¬(firstUnit s d ≤ new.bound ∧ new.bound ≤ highestBound s d)) :
    configDomainAction body s =
      (s, { outcome := .badOrder, body := num3 (firstUnit s d) ++ num3 (highestBound s d) }) := by
  rw [Decidable.not_and_iff_not_or_not, Nat.not_le, Nat.not_le] at disorder
  simp only [configDomainAction, fields, if_pos disorder]

variable (order : firstUnit s d ≤ new.bound ∧ new.bound ≤ highestBound s d)
include order

theorem configDomainAction_of_busy {b : DomainNo} (busy : busyDomain s d new.bound = some b) :
    configDomainAction body s =
      (s, { outcome := .domainBusy, body := num1 b.val ++ num1 (leasesIn s b) ++ num1 (waitersIn s b) }) := by
  simp only [configDomainAction, fields, Nat.not_lt.2 order.1, Nat.not_lt.2 order.2, or_self, if_false, busy]

theorem configDomainAction_of_checked (idle : busyDomain s d new.bound = none) :
    configDomainAction body s =
      (s.setDomain d new, { outcome := .ok, body := num1 d.val ++ num3 (firstUnit s d) ++ domainBytes new }) := by
  simp only [configDomainAction, fields, Nat.not_lt.2 order.1, Nat.not_lt.2 order.2, or_self, if_false, idle]

end Checks

/-- Check 6 of R130 refuses a body with a code out of bounds. -/
theorem execConfigDomain_of_badCode {s : State} {k : AgentNo} {r : Request} (admitted : Admitted s k .configDomain r)
    (bad : 15 < (r.body.getD 0 0).toNat ∨ 1 < (r.body.getD 12 0).toNat) :
    exec (.configDomain k) s = .next (replied (agentPort k) r .badField [] (s.serve (agentPort k))) := by
  have fields : domainFieldsOf r.body = none := Option.eq_none_iff_forall_ne_some.2 fun p some => by
    obtain ⟨domain, enabled⟩ := domainFieldsOf_eq_some some
    omega
  rw [execConfigDomain_admitted admitted, configDomainAction_of_badField fields]
  rfl

/-- Settles O35: the record is read back from the body, and checks 6 to 9 each come with those before them passed.
Taking the request marks only the port served, so the bounds and what the domains hold are those of the state before. -/
theorem configDomainReplacesTheRecord : Obligations.ConfigDomainReplacesTheRecord := by
  refine ⟨fun s k r admitted => execConfigDomain_of_badCode admitted, ?_⟩
  intro s k r d new admitted body bound defaultDuration maxDuration defaultWarn recallGrace refused fieldsOk lowest
    highest orderOk idle busy movesCut
  have read : domainFieldsOf r.body = if fieldsOk then some (d, new) else none :=
    body ▸ domainFieldsOf_domainBytes d { bound, defaultDuration, maxDuration, defaultWarn, recallGrace }
  have fields (fit : fieldsOk) : domainFieldsOf r.body = some (d, new) := read.trans (if_pos fit)
  have order_iff : firstUnit (s.serve (agentPort k)) d ≤ new.bound ∧ new.bound ≤ highestBound (s.serve (agentPort k)) d
      ↔ orderOk := .rfl
  have idle_iff (e : DomainNo) : domainIdle (s.serve (agentPort k)) e = true ↔ idle e := domainIdle_iff_counts
  have run := execConfigDomain_admitted admitted
  have refusal {o : ReplyOutcome} {carried : List Byte}
      (h : configDomainAction r.body (s.serve (agentPort k)) =
        (s.serve (agentPort k), { outcome := o, body := carried })) :
      refused o carried := by
    rw [h] at run
    exact run
  refine ⟨fun unfit => ?_, fun fit disorder => ?_, fun fit order held => ?_, fun fit order free moves held => ?_,
    fun fit order free next => ?_⟩
  · exact refusal (configDomainAction_of_badField (read.trans (if_neg unfit)))
  · exact refusal (configDomainAction_of_badOrder (fields fit) ((not_congr order_iff).2 disorder))
  · exact refusal (configDomainAction_of_busy (fields fit) (order_iff.2 order)
      (busyDomain_of_busy ((not_congr (idle_iff d)).2 held)))
  · exact refusal (configDomainAction_of_busy (fields fit) (order_iff.2 order)
      (busyDomain_of_next_busy ((idle_iff d).2 free) moves ((not_congr (idle_iff (d + 1))).2 held)))
  · rw [configDomainAction_of_checked (fields fit) (order_iff.2 order)
      (busyDomain_of_idle ((idle_iff d).2 free) fun moves => (idle_iff (d + 1)).2 (next moves))] at run
    exact run

end Sys2Proof.Machine

/-! ### STATUS and DOMAIN_INFO (R135, R157, R158) -/

namespace Sys2Proof.Machine

/-! #### Counting the slots of the lease table -/

/-- The leases that a search finds are as many as the slots that hold one it passes (R8). -/
theorem length_search (s : State) (f : LeaseIdx × Lease → Bool) :
    ((liveLeases s).filter f).length =
      ((List.finRange 64).filter fun i =>
        match s.lease i with
        | .held l => f (i, l)
        | .free _ => false).length := by
  rw [liveLeases, List.filter_filterMap, List.length_filterMap_eq_countP, List.countP_eq_length_filter]
  refine congrArg List.length (List.filter_congr fun i _ => ?_)
  cases s.lease i with
  | free m => rfl
  | held l => cases pass : f (i, l) <;> simp [Option.filter, pass]

/-- Lease slot i is FREE (R1). -/
def slotFree (s : State) (i : LeaseIdx) : Bool :=
  match s.lease i with
  | .free _ => true
  | .held _ => false

theorem slotFree_iff {s : State} {i : LeaseIdx} : slotFree s i = true ↔ ∃ memory, s.lease i = .free memory := by
  unfold slotFree
  cases s.lease i <;> simp

/-- The slots without a live lease are the FREE ones (R1). -/
theorem freeLeaseSlots_eq_length (s : State) :
    freeLeaseSlots s = ((List.finRange 64).filter (slotFree s)).length := by
  have live : (liveLeases s).length = (List.finRange 64).countP fun i => decide ¬slotFree s i = true := by
    rw [liveLeases, List.length_filterMap_eq_countP]
    refine List.countP_congr fun i _ => ?_
    rw [decide_eq_true_eq, slotFree_iff]
    cases s.lease i <;> simp
  have slots := List.length_eq_countP_add_countP (slotFree s) (l := List.finRange 64)
  rw [List.length_finRange, ← live, List.countP_eq_length_filter] at slots
  exact Nat.sub_eq_of_eq_add slots

/-! #### The requests -/

theorem domainOfByte_num1_of_high {n : Nat} (high : 16 ≤ n) (byte : n < 256) :
    domainOfByte (BitVec.ofNat 8 n) = none := by
  have read : (BitVec.ofNat 8 n).toNat = n := Nat.mod_eq_of_lt byte
  exact dif_neg (by omega)

theorem execAgentStatus_admitted {s : State} {k : AgentNo} {r : Request} (admitted : Admitted s k .status r) :
    exec (.status (agentPort k)) s =
      let q := agentStatusAction k (s.serve (agentPort k))
      .next (replied (agentPort k) r q.2.outcome q.2.body q.1) := by
  have run : exec (.status (agentPort k)) s = engineTakes .status k (fun _ => agentStatusAction k) s := by
    simp only [exec, execStatus, portAgent_agentPort]
  rw [run, engineTakes_admitted _ admitted]

theorem execCheckStatus_admitted {s : State} {r : Request} (admitted : CheckAdmitted s .status r) :
    exec (.status checkPort) s =
      let q := checkStatusAction (s.serve checkPort)
      .next (replied checkPort r q.2.outcome q.2.body q.1) := by
  have run : exec (.status checkPort) s = checkPortTakes .status (fun _ => checkStatusAction) s := rfl
  rw [run, checkPortTakes_admitted _ admitted]

theorem execDomainInfo_admitted {s : State} {k : AgentNo} {r : Request} (admitted : Admitted s k .domainInfo r) :
    exec (.domainInfo k) s =
      let q := domainInfoAction r.body (s.serve (agentPort k))
      .next (replied (agentPort k) r q.2.outcome q.2.body q.1) :=
  engineTakes_admitted domainInfoAction admitted

theorem domainInfoAction_of_high {s : State} {n : Nat} (high : 16 ≤ n) (byte : n < 256) :
    domainInfoAction (num1 n) s = (s, refuse .badField) := by
  simp only [domainInfoAction, num1, domainOfByte_num1_of_high high byte]

theorem domainInfoAction_num1 (s : State) (d : DomainNo) :
    domainInfoAction (num1 d.val) s =
      (s, { outcome := .ok
            body := num1 d.val ++ num3 (firstUnit s d) ++ domainBytes (s.domain d) ++ num1 (leasesIn s d)
              ++ num1 (waitersIn s d) }) := by
  simp only [domainInfoAction, num1, domainOfByte_num1]

/-- Settles O39: a report reads the state as it is, and the slots it counts are those of the lease table. -/
theorem statusAndDomainInfoReport : Obligations.StatusAndDomainInfoReport := by
  refine ⟨?_, fun s k r admitted => ⟨fun n high byte body => ?_, ?_⟩⟩
  · intro s r device
    have items (p : PortNo) : deviceItems (s.serve p) = device := by
      have free : freeLeaseSlots (s.serve p) = _ := freeLeaseSlots_eq_length s
      rw [deviceItems, free]
      rfl
    refine ⟨fun k admitted => ?_, fun admitted => ?_⟩
    · have run := execAgentStatus_admitted admitted
      rw [agentStatusAction, items] at run
      exact run
    · have run := execCheckStatus_admitted admitted
      rw [checkStatusAction, items] at run
      exact run
  · rw [execDomainInfo_admitted admitted, body, domainInfoAction_of_high high byte]
    rfl
  · intro d body first leases waiters
    have count : leasesIn (s.serve (agentPort k)) d = leases := length_search s _
    have run := execDomainInfo_admitted admitted
    rw [body, domainInfoAction_num1, count] at run
    exact run

end Sys2Proof.Machine

/-! ### Posting (R139, R141) -/

namespace Sys2Proof.Machine

theorem whileRunning_of_asserted {s : State} (act : State → State) (asserted : s.rstAsserted = true) :
    whileRunning act s = .next s :=
  if_pos asserted

theorem whileRunning_of_released {s : State} (act : State → State) (released : s.rstAsserted = false) :
    whileRunning act s = .next (act s) :=
  if_neg (Bool.eq_false_iff.1 released)

theorem postNotice_notice (a k : AgentNo) (n : Notice) (s : State) :
    (postNotice a n s).notice k = if a = k then storeNotice n (s.notice k) else s.notice k :=
  setNotice_storeNotice_notice (fun _ => rfl) a k n

/-- An arrival's notices, posted in the order given (R141). -/
def postAll (arrival : List (AgentNo × Notice)) (s : State) : State :=
  arrival.foldl (fun s p => postNotice p.1 p.2 s) s

theorem exec_noticePost (arrival : List (AgentNo × Notice)) (s : State) :
    exec (.noticePost arrival) s = whileRunning (postAll arrival) s := rfl

theorem postAll_cons (p : AgentNo × Notice) (arrival : List (AgentNo × Notice)) (s : State) :
    postAll (p :: arrival) s = postAll arrival (postNotice p.1 p.2 s) := rfl

theorem postAll_frame (arrival : List (AgentNo × Notice)) (s : State) :
    postAll arrival s = { s with notices := (postAll arrival s).notices } := by
  refine foldl_keeps (fun t => t = { s with notices := t.notices }) _ (fun t p same => ?_) arrival s rfl
  rw [same]
  rfl

/-- A queue takes the notices addressed to its agent, in the order of the arrival. -/
theorem postAll_notice (k : AgentNo) : ∀ (arrival : List (AgentNo × Notice)) (s : State),
    (postAll arrival s).notice k =
      (arrival.filter fun p => decide (p.1 = k)).foldl (fun q p => storeNotice p.2 q) (s.notice k)
  | [], _ => rfl
  | p :: arrival, s => by
    rw [postAll_cons, postAll_notice k arrival, postNotice_notice]
    by_cases own : p.1 = k <;> simp [own]

/-- Settles O36: one post is stored or dropped by the room in its queue, and an arrival is its posts in order. -/
theorem postingNumbersStoresOrDrops : Obligations.PostingNumbersStoresOrDrops := by
  refine ⟨fun q n => ⟨storeNotice_of_room n, storeNotice_of_full n⟩, fun s arrival => ?_⟩
  rw [exec_noticePost]
  exact ⟨whileRunning_of_asserted _, fun released => ⟨postAll arrival s, whileRunning_of_released _ released,
    postAll_frame arrival s, fun k => postAll_notice k arrival s⟩⟩

end Sys2Proof.Machine

/-! ### NOTICE_READ, NOTICE_ACK and SET_NOTICE_MASK (R142, R143, R144) -/

namespace Sys2Proof.Machine

/-! #### A request taken runs its action -/

section Taken

variable {s : State} {k : AgentNo} {r : Request}

theorem execNoticeRead_admitted (admitted : NoticeAdmitted s k .noticeRead r) :
    exec (.noticeRead k) s =
      let q := noticeReadAction k s
      .next (replied (agentPort k) r q.2.outcome q.2.body q.1) :=
  noticeUnitTakes_admitted (fun _ => noticeReadAction k) (by decide) admitted

theorem execNoticeAck_admitted (admitted : NoticeAdmitted s k .noticeAck r) :
    exec (.noticeAck k) s =
      let q := noticeAckAction k r.body s
      .next (replied (agentPort k) r q.2.outcome q.2.body q.1) :=
  noticeUnitTakes_admitted (noticeAckAction k) (by decide) admitted

theorem execSetNoticeMask_admitted (admitted : NoticeAdmitted s k .setNoticeMask r) :
    exec (.setNoticeMask k) s =
      let q := setNoticeMaskAction k r.body s
      .next (replied (agentPort k) r q.2.outcome q.2.body q.1) :=
  noticeUnitTakes_admitted (setNoticeMaskAction k) (by decide) admitted

end Taken

/-! #### The actions, case by case -/

section Actions

variable {s : State} {k : AgentNo}

theorem noticeReadAction_of_empty (empty : (s.notice k).queue = []) :
    noticeReadAction k s =
      (s.setNotice k { s.notice k with lost := false },
        { outcome := .queueEmpty
          body := yesNo (s.notice k).lost ++ num1 (s.notice k).lostCount ++ [(s.notice k).nextSeq] }) := by
  simp only [noticeReadAction, empty]

theorem noticeReadAction_of_oldest {n : NoticeRecord} {rest : List NoticeRecord}
    (oldest : (s.notice k).queue = n :: rest) :
    noticeReadAction k s =
      ({ s.setNotice k { s.notice k with lost := false } with draws := s.draws + 1 },
        { outcome := .ok
          body := noticeRecordBytes s.draws n ++ yesNo (s.notice k).lost ++ num1 (s.notice k).lostCount
            ++ num1 (s.notice k).queue.length ++ [(s.notice k).nextSeq] }) := by
  simp only [noticeReadAction, oldest]

variable {seq : SeqNo}

theorem noticeAckAction_of_empty (empty : (s.notice k).queue = []) :
    noticeAckAction k [seq] s = (s, { outcome := .queueEmpty, body := [(s.notice k).nextSeq] }) := by
  simp only [noticeAckAction, empty]

theorem noticeAckAction_of_mismatch {n : NoticeRecord} {rest : List NoticeRecord}
    (oldest : (s.notice k).queue = n :: rest) (stale : seq ≠ n.seq) :
    noticeAckAction k [seq] s = (s, { outcome := .seqMismatch, body := [n.seq] }) := by
  simp only [noticeAckAction, oldest, if_neg stale]

theorem noticeAckAction_of_match {n : NoticeRecord} {rest : List NoticeRecord}
    (oldest : (s.notice k).queue = n :: rest) (named : seq = n.seq) :
    noticeAckAction k [seq] s =
      (s.setNotice k { s.notice k with queue := rest }, { outcome := .ok, body := [seq] ++ num1 rest.length }) := by
  simp only [noticeAckAction, oldest, if_pos named]

variable {m : Byte}

theorem setNoticeMaskAction_of_bit7 (high : m.getLsbD 7 = true) :
    setNoticeMaskAction k [m] s = (s, refuse .badField) :=
  if_pos high

theorem setNoticeMaskAction_of_noBit7 (clear : m.getLsbD 7 = false) :
    setNoticeMaskAction k [m] s =
      (s.setNotice k { s.notice k with mask := m.setWidth 7 },
        { outcome := .ok, body := num1 (s.notice k).mask.toNat }) :=
  if_neg (Bool.eq_false_iff.1 clear)

end Actions

/-- Settles O37: the reply depends on whether the queue holds a notice; the flag is cleared either way. -/
theorem noticeReadReportsTheOldest : Obligations.NoticeReadReportsTheOldest := by
  intro s k r admitted q cleared
  rw [execNoticeRead_admitted admitted]
  refine ⟨fun empty => ?_, fun n rest oldest => ?_⟩
  · rw [noticeReadAction_of_empty empty]
    rfl
  · rw [noticeReadAction_of_oldest oldest]
    rfl

/-- Settles O38: the three rows of R143's table, and the two cases of R144. -/
theorem noticeAckAndMask : Obligations.NoticeAckAndMask := by
  refine ⟨fun s k r seq admitted body => ?_, fun s k r m admitted body => ?_⟩
  · rw [execNoticeAck_admitted admitted, body]
    refine ⟨fun empty => ?_, fun n rest oldest => ⟨fun stale => ?_, fun named => ?_⟩⟩
    · rw [noticeAckAction_of_empty empty]
    · rw [noticeAckAction_of_mismatch oldest stale]
    · rw [noticeAckAction_of_match oldest named]
      rfl
  · rw [execSetNoticeMask_admitted admitted, body]
    refine ⟨fun high => ?_, fun clear => ?_⟩
    · rw [setNoticeMaskAction_of_bit7 high]
      rfl
    · rw [setNoticeMaskAction_of_noBit7 clear]
      rfl

end Sys2Proof.Machine

/-! ### The port status byte (R145, R165) -/

namespace Sys2Proof.Machine

/-- NOTE# is asserted for an agent that is not detached, on a loss or on a notice whose kind the mask lets through
(R145), while RST# is released (R172). -/
theorem noteAsserted_iff {s : State} {k : AgentNo} :
    noteAsserted s k = true ↔ s.rstAsserted = false ∧ (s.agent k).state ≠ .detached
      ∧ ((s.notice k).lost = true
        ∨ ∃ n ∈ (s.notice k).queue, (s.notice k).mask.getLsbD (noticeKindCode n.notice - 1) = true) := by
  simp [noteAsserted, maskedIn, and_assoc]

/-! #### The fields of the byte as numbers -/

theorem lastSendCode_lt (judged : LastSend) : lastSendCode judged < 4 := by
  cases judged <;> decide

theorem agentStateCode_lt (state : AgentState) : (agentStateCode state).toNat < 4 := by
  cases state <;> decide

theorem agentBits_checkPort (s : State) : agentBits s checkPort = 0 := rfl

theorem agentBits_agentPort (s : State) (k : AgentNo) :
    agentBits s (agentPort k) = 4 * (noteAsserted s k).toNat + (agentStateCode (s.agent k).state).toNat := by
  simp only [agentBits, portAgent_agentPort]

theorem agentBits_lt (s : State) (p : PortNo) : agentBits s p < 8 := by
  unfold agentBits
  cases portAgent p with
  | none => exact Nat.succ_pos 7
  | some k =>
    have note := Bool.toNat_le (noteAsserted s k)
    have code := agentStateCode_lt (s.agent k).state
    dsimp only
    omega

/-- The number that the status byte of port p spells. -/
def statusNumber (s : State) (p : PortNo) : Nat :=
  slotBits (s.port p).slots + 32 * (s.port p).overrun.toNat + 8 * lastSendCode (s.port p).lastSend + agentBits s p

theorem slotBits_eq (slots : PortSlots) : slotBits slots = 0 ∨ slotBits slots = 64 ∨ slotBits slots = 128 := by
  cases slots <;> simp [slotBits]

theorem slotBits_eq_128 {slots : PortSlots} : slotBits slots = 128 ↔ ∃ r, slots = .answered r := by
  cases slots <;> simp [slotBits]

theorem slotBits_eq_64 {slots : PortSlots} : slotBits slots = 64 ↔ ∃ r, slots = .pending r := by
  cases slots <;> simp [slotBits]

section Fields

variable (s : State) (p : PortNo)

/-- The number splits at bit 5: REPLY_READY, PENDING and OVERRUN above, the two lower fields below. -/
theorem statusNumber_div_32 : statusNumber s p / 32 = slotBits (s.port p).slots / 32 + (s.port p).overrun.toNat := by
  have slots := slotBits_eq (s.port p).slots
  have judged := lastSendCode_lt (s.port p).lastSend
  have agent := agentBits_lt s p
  unfold statusNumber
  omega

theorem statusNumber_lastSend : statusNumber s p / 8 % 4 = lastSendCode (s.port p).lastSend := by
  have slots := slotBits_eq (s.port p).slots
  have judged := lastSendCode_lt (s.port p).lastSend
  have agent := agentBits_lt s p
  unfold statusNumber
  omega

theorem statusNumber_agentBits : statusNumber s p % 8 = agentBits s p := by
  have slots := slotBits_eq (s.port p).slots
  have agent := agentBits_lt s p
  unfold statusNumber
  omega

theorem statusNumber_lt : statusNumber s p < 256 := by
  have slots := slotBits_eq (s.port p).slots
  have overrun := Bool.toNat_le (s.port p).overrun
  have upper := statusNumber_div_32 s p
  omega

theorem statusByte_toNat : (statusByte s p).toNat = statusNumber s p :=
  Nat.mod_eq_of_lt (statusNumber_lt s p)

theorem statusByte_getLsbD (i : Nat) :
    (statusByte s p).getLsbD i = true ↔ statusNumber s p / 2 ^ i % 2 = 1 := by
  rw [← statusByte_toNat, BitVec.getLsbD, Nat.testBit_eq_decide_div_mod_eq, decide_eq_true_eq]

end Fields

/-- A byte masked to its lowest n bits, as a number. -/
theorem toNat_and_lowBits (b : Byte) {n : Nat} (small : n ≤ 8) :
    (b &&& BitVec.ofNat 8 (2 ^ n - 1)).toNat = b.toNat % 2 ^ n := by
  have mask : 2 ^ n - 1 < 2 ^ 8 := by
    have := Nat.pow_le_pow_right (n := 2) (by decide) small
    omega
  rw [BitVec.toNat_and, BitVec.toNat_ofNat, Nat.mod_eq_of_lt mask, Nat.and_two_pow_sub_one_eq_mod]

/-! #### The fields read back -/

section Read

variable (s : State) (p : PortNo)

theorem statusByte_bit7 : (statusByte s p).getLsbD 7 = true ↔ ∃ r, (s.port p).slots = .answered r := by
  have slots := slotBits_eq (s.port p).slots
  have overrun := Bool.toNat_le (s.port p).overrun
  have upper := statusNumber_div_32 s p
  rw [← slotBits_eq_128, statusByte_getLsbD]
  omega

theorem statusByte_bit6 : (statusByte s p).getLsbD 6 = true ↔ ∃ r, (s.port p).slots = .pending r := by
  have slots := slotBits_eq (s.port p).slots
  have overrun := Bool.toNat_le (s.port p).overrun
  have upper := statusNumber_div_32 s p
  rw [← slotBits_eq_64, statusByte_getLsbD]
  omega

theorem statusByte_bit5 : (statusByte s p).getLsbD 5 = (s.port p).overrun := by
  have slots := slotBits_eq (s.port p).slots
  have overrun := Bool.toNat_le (s.port p).overrun
  have upper := statusNumber_div_32 s p
  rw [Bool.eq_iff_iff, statusByte_getLsbD, ← Bool.toNat_eq_one]
  omega

theorem statusByte_lastSend : (statusByte s p >>> 3) &&& 3 = BitVec.ofNat 8 (lastSendCode (s.port p).lastSend) := by
  have judged := lastSendCode_lt (s.port p).lastSend
  have code : (BitVec.ofNat 8 (lastSendCode (s.port p).lastSend)).toNat = lastSendCode (s.port p).lastSend :=
    Nat.mod_eq_of_lt (by omega)
  refine BitVec.eq_of_toNat_eq ((toNat_and_lowBits _ (n := 2) (by decide)).trans ?_)
  rw [code, BitVec.toNat_ushiftRight, statusByte_toNat, Nat.shiftRight_eq_div_pow]
  exact statusNumber_lastSend s p

theorem statusByte_and_7 : (statusByte s p &&& 7).toNat = agentBits s p := by
  refine (toNat_and_lowBits _ (n := 3) (by decide)).trans ?_
  rw [statusByte_toNat]
  exact statusNumber_agentBits s p

end Read

theorem statusByte_note (s : State) (k : AgentNo) :
    (statusByte s (agentPort k)).getLsbD 2 = noteAsserted s k := by
  have code := agentStateCode_lt (s.agent k).state
  have note := Bool.toNat_le (noteAsserted s k)
  have low := statusNumber_agentBits s (agentPort k)
  rw [agentBits_agentPort] at low
  rw [Bool.eq_iff_iff, statusByte_getLsbD, ← Bool.toNat_eq_one]
  omega

theorem statusByte_agentState (s : State) (k : AgentNo) :
    statusByte s (agentPort k) &&& 3 = agentStateCode (s.agent k).state := by
  have code := agentStateCode_lt (s.agent k).state
  have low := statusNumber_agentBits s (agentPort k)
  rw [agentBits_agentPort] at low
  refine BitVec.eq_of_toNat_eq ((toNat_and_lowBits _ (n := 2) (by decide)).trans ?_)
  rw [statusByte_toNat]
  omega

/-- Settles O6: the fields of the byte do not overlap, so each is read back as it was put in. -/
theorem statusByteShowsThePort : Obligations.StatusByteShowsThePort := by
  intro s p b
  refine ⟨statusByte_bit7 s p, statusByte_bit6 s p, statusByte_bit5 s p, ?_, ?_, ?_⟩
  · refine (statusByte_lastSend s p).trans ?_
    cases (s.port p).lastSend <;> rfl
  · rintro rfl
    exact BitVec.eq_of_toNat_eq (statusByte_and_7 s checkPort)
  · rintro k rfl
    refine ⟨?_, statusByte_agentState s k⟩
    rw [statusByte_note, noteAsserted_iff]

end Sys2Proof.Machine

/-! ### CHECK_TOKEN and CHECK_AGENT (R159 to R161) -/

namespace Sys2Proof.Machine

/-! #### The bodies -/

theorem accessOf_of_high {n : Nat} (high : 1 < n) (byte : n < 256) : accessOf (BitVec.ofNat 8 n) = none := by
  have value : (BitVec.ofNat 8 n).toNat = n := Nat.mod_eq_of_lt byte
  have not0 : BitVec.ofNat 8 n ≠ 0 := fun same => by simp [same] at value; omega
  have not1 : BitVec.ofNat 8 n ≠ 1 := fun same => by simp [same] at value; omega
  rw [accessOf, if_neg not0, if_neg not1]

/-- The codes 0 and 1 name READ, which every mode permits, and WRITE, which EXCLUSIVE permits (chapter 10.5). -/
theorem exists_accessOf_of_le {n : Nat} (low : n ≤ 1) :
    ∃ a, accessOf (BitVec.ofNat 8 n) = some a ∧ ∀ m, permits m a = true ↔ n = 0 ∨ m = .exclusive := by
  obtain rfl | rfl : n = 0 ∨ n = 1 := by omega
  · exact ⟨.read, rfl, fun m => by simp [permits]⟩
  · exact ⟨.write, rfl, fun m => by simp [permits]⟩

theorem checkTokenFieldsOf_bytes (token : Token) {unit : Nat} (access : Nat) (width : unit < 16777216) :
    checkTokenFieldsOf (tokenBytes token ++ num3 unit ++ num1 access) =
      (accessOf (BitVec.ofNat 8 access)).bind fun a =>
        if unit < unitSpace then some (token, unit, a) else none := by
  have readToken := tokenOf_tokenBytes token
  have readUnit := natOfBytes_num3 unit width
  simp only [tokenBytes, num4, num3, num2] at readToken readUnit
  simp only [tokenBytes, num4, num3, num2, num1, List.cons_append, List.nil_append, checkTokenFieldsOf, readToken,
    readUnit]
  cases accessOf (BitVec.ofNat 8 access) <;> rfl

theorem checkAgentFieldsOf_bytes (agent : Nat) {unit : Nat} (access : Nat) (width : unit < 16777216) :
    checkAgentFieldsOf (num1 agent ++ num3 unit ++ num1 access) =
      (agentOf (BitVec.ofNat 8 agent)).bind fun k => (accessOf (BitVec.ofNat 8 access)).bind fun a =>
        if unit < unitSpace then some (k, unit, a) else none := by
  have readUnit := natOfBytes_num3 unit width
  simp only [num3, num2] at readUnit
  simp only [num3, num2, num1, List.cons_append, List.nil_append, checkAgentFieldsOf, readUnit]
  cases agentOf (BitVec.ofNat 8 agent) <;> cases accessOf (BitVec.ofNat 8 access) <;> rfl

/-- R159's field check refuses a unit outside the unit space and an access code above 1. -/
theorem checkTokenFieldsOf_of_bad (token : Token) {unit access : Nat} (width : unit < 16777216)
    (byte : access < 256) (bad : ¬(unit < unitSpace ∧ access ≤ 1)) :
    checkTokenFieldsOf (tokenBytes token ++ num3 unit ++ num1 access) = none := by
  rw [checkTokenFieldsOf_bytes token access width]
  by_cases low : access ≤ 1
  · simp [show ¬unit < unitSpace from fun inside => bad ⟨inside, low⟩]
  · rw [accessOf_of_high (Nat.not_le.1 low) byte, Option.bind_none]

/-- R160's field check refuses an agent above 7 too. -/
theorem checkAgentFieldsOf_of_bad {agent unit access : Nat} (agentByte : agent < 256) (width : unit < 16777216)
    (byte : access < 256) (bad : ¬(agent ≤ 7 ∧ unit < unitSpace ∧ access ≤ 1)) :
    checkAgentFieldsOf (num1 agent ++ num3 unit ++ num1 access) = none := by
  rw [checkAgentFieldsOf_bytes agent access width]
  by_cases named : agent ≤ 7
  · by_cases low : access ≤ 1
    · simp [show ¬unit < unitSpace from fun inside => bad ⟨named, inside, low⟩]
    · rw [accessOf_of_high (Nat.not_le.1 low) byte]
      exact Option.bind_fun_none _
  · rw [agentOf_of_high (Nat.not_le.1 named) agentByte, Option.bind_none]

/-! #### The leases that answer -/

theorem covers_iff {r : Range} {u : Nat} : covers r u = true ↔ r.base ≤ u ∧ u < r.base + r.count := by
  simp only [covers, Bool.and_eq_true, decide_eq_true_eq]
  exact Iff.rfl

/-- A range overlaps the one-unit range of a unit where it covers the unit (R8). -/
theorem overlaps_unit (r : Range) (u : Nat) : overlaps r { base := u, count := 1 } = covers r u := by
  rw [Bool.eq_iff_iff, overlaps_iff, covers_iff]
  exact and_congr Nat.lt_succ_iff Iff.rfl

theorem leaseOfToken_eq_none {s : State} {t : Token} :
    leaseOfToken s t = none ↔ ∀ i l, s.lease i = .held l → l.token ≠ t := by
  rw [leaseOfToken, ← List.head?_filter, List.head?_eq_none_iff, search_eq_nil]
  simp only [decide_eq_false_iff_not, ne_eq]

/-- A token that one live lease alone carries finds it (R159). -/
theorem leaseOfToken_of_unique {s : State} {i : LeaseIdx} {l : Lease} (held : s.lease i = .held l)
    (unique : ∀ j m, s.lease j = .held m → m.token = l.token → j = i) : leaseOfToken s l.token = some (i, l) := by
  rw [leaseOfToken, ← List.head?_filter, head?_of_search]
  refine ⟨held, decide_eq_true rfl, fun j before m other => decide_eq_false fun same => ?_⟩
  exact Fin.ne_of_lt before (unique j m other same)

/-- The live lease l of agent k covers a unit with a mode that permits an access (R160). -/
def AnswersFor (k : AgentNo) (u : Nat) (a : Access) (l : Lease) : Prop :=
  l.holder = k ∧ covers l.range u = true ∧ permits l.mode a = true

theorem coveringLeases_eq (s : State) (k : AgentNo) (u : Nat) (a : Access) :
    coveringLeases s k u a =
      (liveLeases s).filter fun p => decide (p.2.holder = k) && (covers p.2.range u && permits p.2.mode a) := by
  simp only [coveringLeases, overlapSearch, List.filter_filter, overlaps_unit]
  refine List.filter_congr fun p _ => ?_
  rw [Bool.and_assoc, Bool.and_comm (permits _ _)]

theorem answersFor_iff {k : AgentNo} {u : Nat} {a : Access} {l : Lease} :
    (decide (l.holder = k) && (covers l.range u && permits l.mode a)) = true ↔ AnswersFor k u a l := by
  simp only [Bool.and_eq_true, decide_eq_true_eq, AnswersFor]

theorem coveringLeases_head?_eq_some {s : State} {k : AgentNo} {u : Nat} {a : Access} {i : LeaseIdx} {l : Lease} :
    (coveringLeases s k u a).head? = some (i, l) ↔
      s.lease i = .held l ∧ AnswersFor k u a l ∧ ∀ j < i, ∀ m, s.lease j = .held m → ¬AnswersFor k u a m := by
  rw [coveringLeases_eq, head?_of_search]
  simp only [← answersFor_iff, Bool.not_eq_true]

theorem coveringLeases_head?_eq_none {s : State} {k : AgentNo} {u : Nat} {a : Access} :
    (coveringLeases s k u a).head? = none ↔ ∀ i l, s.lease i = .held l → ¬AnswersFor k u a l := by
  rw [coveringLeases_eq, List.head?_eq_none_iff, search_eq_nil]
  simp only [← answersFor_iff, Bool.not_eq_true]

/-! #### CHECK_TOKEN -/

theorem execCheckToken_admitted {s : State} {r : Request} (admitted : CheckAdmitted s .checkToken r) :
    exec .checkToken s =
      let q := checkTokenAction r.body (s.serve checkPort)
      .next (replied checkPort r q.2.outcome q.2.body q.1) :=
  checkPortTakes_admitted checkTokenAction admitted

theorem checkToken_of_noToken {s : State} {t : Token} (u : Nat) (a : Access) (found : leaseOfToken s t = none) :
    checkToken t u a s = (countPortDenial s, deny .noToken []) := by
  simp only [checkToken, found]

section Checks

variable {s : State} {t : Token} {u : Nat} {a : Access} {i : LeaseIdx} {l : Lease}
  (found : leaseOfToken s t = some (i, l))
include found

theorem checkToken_of_outOfRange (outside : ¬covers l.range u = true) :
    checkToken t u a s =
      (countAgentDenial l.holder s, deny .outOfRange (leaseIdBytes (leaseIdAt i l) ++ num1 l.holder.val)) := by
  simp only [checkToken, found, Bool.eq_false_iff.2 outside, if_true]

variable (inside : covers l.range u = true)
include inside

theorem checkToken_of_mode (denied : ¬permits l.mode a = true) :
    checkToken t u a s =
      (countAgentDenial l.holder s, deny .mode (leaseIdBytes (leaseIdAt i l) ++ num1 l.holder.val)) := by
  simp only [checkToken, found, inside, Bool.eq_false_iff.2 denied, if_true, if_false, Bool.true_eq_false]

theorem checkToken_of_allowed (permitted : permits l.mode a = true) :
    checkToken t u a s = (s, { outcome := .allow, body := leaseIdBytes (leaseIdAt i l) ++ num1 l.holder.val }) := by
  simp only [checkToken, found, inside, permitted, if_false, Bool.true_eq_false]

end Checks

/-- Settles O43: the fields are read back from the body, and each test comes with those before it passed. The token
finds its lease because no other live lease carries it. -/
theorem checkTokenAnswers : Obligations.CheckTokenAnswers := by
  intro s r token unit access admitted body width byte unique answers fieldsOk
  have run := execCheckToken_admitted admitted
  have answer {o : ReplyOutcome} {carried : List Byte} {t : State}
      (h : checkTokenAction r.body (s.serve checkPort) = (t.serve checkPort, { outcome := o, body := carried })) :
      answers o carried t := by
    rw [h] at run
    exact run
  have refused (bad : ¬fieldsOk) :
      checkTokenAction r.body (s.serve checkPort) = (s.serve checkPort, refuse .badField) := by
    rw [checkTokenAction, body, checkTokenFieldsOf_of_bad token width byte bad]
  have tested (ok : fieldsOk) :
      ∃ a, checkTokenAction r.body (s.serve checkPort) = checkToken token unit a (s.serve checkPort)
        ∧ ∀ m, permits m a = true ↔ access = 0 ∨ m = .exclusive := by
    obtain ⟨inSpace, low⟩ := ok
    obtain ⟨a, code, permits_iff⟩ := exists_accessOf_of_le low
    refine ⟨a, ?_, permits_iff⟩
    rw [checkTokenAction, body, checkTokenFieldsOf_bytes token access width, code, Option.bind_some, if_pos inSpace]
  refine ⟨fun bad => answer (refused bad), fun ok unheld => ?_, ?_⟩
  · obtain ⟨a, test, -⟩ := tested ok
    exact answer (test.trans (checkToken_of_noToken unit a (leaseOfToken_eq_none.2 unheld)))
  · rintro i l held rfl ok names counted inRange modeOk
    obtain ⟨a, test, permits_iff⟩ := tested ok
    have found : leaseOfToken (s.serve checkPort) l.token = some (i, l) :=
      leaseOfToken_of_unique held fun j m other same => unique j i m l other held same rfl
    exact ⟨fun outside => answer (test.trans (checkToken_of_outOfRange found ((not_congr covers_iff).2 outside))),
      fun inside denied => answer (test.trans
        (checkToken_of_mode found (covers_iff.2 inside) ((not_congr (permits_iff l.mode)).2 denied))),
      fun inside permitted => answer (test.trans
        (checkToken_of_allowed found (covers_iff.2 inside) ((permits_iff l.mode).2 permitted)))⟩

/-! #### CHECK_AGENT -/

theorem execCheckAgent_admitted {s : State} {r : Request} (admitted : CheckAdmitted s .checkAgent r) :
    exec .checkAgent s =
      let q := checkAgentAction r.body (s.serve checkPort)
      .next (replied checkPort r q.2.outcome q.2.body q.1) :=
  checkPortTakes_admitted checkAgentAction admitted

section Table

variable {s : State} {k : AgentNo}

theorem checkAgent_of_detached (u : Nat) (a : Access) (detached : (s.agent k).state = .detached) :
    checkAgent k u a s = (countAgentDenial k s, deny .notAttached []) := by
  simp only [checkAgent, detached]

theorem checkAgent_of_fenced (u : Nat) (a : Access) (fenced : (s.agent k).state = .fenced) :
    checkAgent k u a s = (countAgentDenial k s, deny .agentFenced []) := by
  simp only [checkAgent, fenced]

variable {u : Nat} {a : Access} (attached : (s.agent k).state = .attached)
include attached

theorem checkAgent_of_covered {i : LeaseIdx} {l : Lease} (found : (coveringLeases s k u a).head? = some (i, l)) :
    checkAgent k u a s =
      (s, { outcome := .allow, body := leaseIdBytes (leaseIdAt i l) ++ tokenBytes l.token }) := by
  simp only [checkAgent, attached, found]

theorem checkAgent_of_notCovered (lacking : (coveringLeases s k u a).head? = none) :
    checkAgent k u a s = (countAgentDenial k s, deny .notCovered []) := by
  simp only [checkAgent, attached, lacking]

end Table

/-- Settles O44: the fields are read back from the body, and R160's table is read by the agent's state; the search
over the one-unit range finds the lowest slot whose lease answers. -/
theorem checkAgentAnswers : Obligations.CheckAgentAnswers := by
  intro s r agent unit access admitted body agentByte width byte answers
  have run := execCheckAgent_admitted admitted
  have answer {o : ReplyOutcome} {carried : List Byte} {t : State}
      (h : checkAgentAction r.body (s.serve checkPort) = (t.serve checkPort, { outcome := o, body := carried })) :
      answers o carried t := by
    rw [h] at run
    exact run
  constructor
  · intro bad
    refine answer (o := .badField) (carried := []) (t := s) ?_
    rw [checkAgentAction, body, checkAgentFieldsOf_of_bad agentByte width byte bad]
    rfl
  · rintro k rfl inSpace low counted answering
    obtain ⟨a, code, permits_iff⟩ := exists_accessOf_of_le low
    have test : checkAgentAction r.body (s.serve checkPort) = checkAgent k unit a (s.serve checkPort) := by
      rw [checkAgentAction, body, checkAgentFieldsOf_bytes k.val access width, agentOf_num1, Option.bind_some, code,
        Option.bind_some, if_pos inSpace]
    have answering_iff (j : LeaseIdx) : answering j ↔ ∃ l, s.lease j = .held l ∧ AnswersFor k unit a l := by
      simp only [answering, AnswersFor, covers_iff, permits_iff, and_assoc]
    refine ⟨fun detached => answer (test.trans (checkAgent_of_detached unit a detached)),
      fun fenced => answer (test.trans (checkAgent_of_fenced unit a fenced)), fun attached => ⟨?_, ?_⟩⟩
    · intro i l held answers_i lowest
      obtain ⟨m, same, covered⟩ := (answering_iff i).1 answers_i
      obtain rfl : l = m := SlotContent.held.inj (held.symm.trans same)
      have found : (coveringLeases (s.serve checkPort) k unit a).head? = some (i, l) :=
        coveringLeases_head?_eq_some.2
          ⟨held, covered, fun j before m other fits => lowest j before ((answering_iff j).2 ⟨m, other, fits⟩)⟩
      exact answer (test.trans (checkAgent_of_covered (s := s.serve checkPort) attached found))
    · intro uncovered
      have lacking : (coveringLeases (s.serve checkPort) k unit a).head? = none :=
        coveringLeases_head?_eq_none.2 fun i l held fits => uncovered i ((answering_iff i).2 ⟨l, held, fits⟩)
      exact answer (test.trans (checkAgent_of_notCovered (s := s.serve checkPort) attached lacking))

end Sys2Proof.Machine

/-! ### QUERY and QUERY_NEXT (R149 to R151, R153, R154, R156) -/

namespace Sys2Proof.Machine

/-! #### The body of a QUERY -/

/-- What R150's check asks of the bytes of a body. -/
theorem filterOf_eq_some {body : List Byte} {f : Filter} (h : filterOf body = some f) :
    (body.getD 0 0).toNat = 0 ∧ rangeValid (rangeOf (body.drop 2)) = true
      ∨ (body.getD 0 0).toNat = 1 ∧ (body.getD 1 0).toNat < 8
      ∨ (body.getD 0 0).toNat = 2 ∧ ((body.getD 1 0).toNat = 255 ∨ (body.getD 1 0).toNat < 8) := by
  unfold filterOf at h
  split at h
  · next code agent r0 r1 r2 r3 r4 =>
    simp only [List.getD_cons_zero, List.getD_cons_succ, List.drop_succ_cons, List.drop_zero]
    dsimp only at h
    split at h
    · next range =>
      split at h
      · next valid => exact .inl ⟨congrArg BitVec.toNat range, valid⟩
      · cases h
    split at h
    · next byAgent =>
      obtain ⟨j, named, -⟩ := Option.map_eq_some_iff.1 h
      exact .inr (.inl ⟨congrArg BitVec.toNat byAgent, toNat_of_agentOf named⟩)
    split at h
    · next waits =>
      split at h
      · next any => exact .inr (.inr ⟨congrArg BitVec.toNat waits, .inl (congrArg BitVec.toNat any)⟩)
      · obtain ⟨j, named, -⟩ := Option.map_eq_some_iff.1 h
        exact .inr (.inr ⟨congrArg BitVec.toNat waits, .inr (toNat_of_agentOf named)⟩)
    · cases h
  · cases h

theorem rangeValid_iff {r : Range} : rangeValid r = true ↔ 0 < r.count ∧ r.base + r.count ≤ unitSpace := by
  simp [rangeValid]

theorem rangeValid_of_rangeSound {r : Range} (sound : RangeSound r) : rangeValid r = true :=
  rangeValid_iff.2 ⟨sound.1, sound.2.2⟩

/-- A range that R150 accepts is read back from the body, and the agent byte is ignored. -/
theorem filterOf_byRange {r : Range} (sound : RangeSound r) (ignored : Byte) :
    filterOf ([0, ignored] ++ rangeBytes r) = some (.byRange r) := by
  have valid := rangeValid_of_rangeSound sound
  obtain ⟨positive, countFits, inSpace⟩ := sound
  have baseFits : r.base < unitSpace := by
    simp only [rangeEnd] at inSpace
    omega
  have read := rangeOf_rangeBytes r baseFits countFits
  obtain ⟨b4, b3, b2, b1, b0, bytes⟩ := rangeBytes_shape r
  rw [bytes] at read ⊢
  simp only [List.cons_append, List.nil_append, filterOf, read, valid, if_true]

theorem exists_of_length_eq_five {bytes : List Byte} (width : bytes.length = 5) :
    ∃ b4 b3 b2 b1 b0, bytes = [b4, b3, b2, b1, b0] :=
  match bytes, width with
  | [b4, b3, b2, b1, b0], _ => ⟨b4, b3, b2, b1, b0, rfl⟩

section Ignored

variable {ignored : List Byte} (width : ignored.length = 5)
include width

theorem filterOf_byAgent (j : AgentNo) : filterOf ([1] ++ num1 j.val ++ ignored) = some (.byAgent j) := by
  obtain ⟨r0, r1, r2, r3, r4, rfl⟩ := exists_of_length_eq_five width
  simp [num1, filterOf, agentOf_num1]

theorem filterOf_waits_any : filterOf ([2] ++ [0xFF] ++ ignored) = some (.waits none) := by
  obtain ⟨r0, r1, r2, r3, r4, rfl⟩ := exists_of_length_eq_five width
  rfl

theorem filterOf_waits_agent (j : AgentNo) : filterOf ([2] ++ num1 j.val ++ ignored) = some (.waits (some j)) := by
  have named : BitVec.ofNat 8 j.val ≠ 0xFF := by revert j; decide
  obtain ⟨r0, r1, r2, r3, r4, rfl⟩ := exists_of_length_eq_five width
  simp only [num1, List.cons_append, List.nil_append, filterOf, agentOf_num1, if_neg named]
  rfl

end Ignored

/-! #### A request taken runs its batch -/

section Taken

variable {s : State} {k : AgentNo} {r : Request}

theorem execQuery_admitted (admitted : Admitted s k .query r) :
    exec (.query k) s = .next (answered (agentPort k) r (queryAction k r.body) (s.serve (agentPort k))) :=
  engineTakes_admitted (queryAction k) admitted

theorem execQueryNext_admitted (admitted : Admitted s k .queryNext r) :
    exec (.queryNext k) s = .next (answered (agentPort k) r (queryNextAction k) (s.serve (agentPort k))) :=
  engineTakes_admitted (fun _ => queryNextAction k) admitted

/-- A QUERY whose filter passes runs the first batch under the cursor it opens (R150). -/
theorem execQuery_of_filter {f : Filter} (admitted : Admitted s k .query r) (filter : filterOf r.body = some f) :
    exec (.query k) s = .next (answered (agentPort k) r (nextBatch k (openCursor f)) (s.serve (agentPort k))) := by
  have opens : queryAction k r.body = nextBatch k (openCursor f) := by
    unfold queryAction
    rw [filter]
  rw [execQuery_admitted admitted, opens]

/-- A QUERY_NEXT runs the next batch under the open cursor (R156). -/
theorem execQueryNext_of_cursor {c : Cursor} (admitted : Admitted s k .queryNext r) (opened : s.cursor k = some c) :
    exec (.queryNext k) s = .next (answered (agentPort k) r (nextBatch k c) (s.serve (agentPort k))) := by
  have continues : queryNextAction k (s.serve (agentPort k)) = nextBatch k c (s.serve (agentPort k)) := by
    rw [queryNextAction, State.serve_cursor, opened]
  rw [execQueryNext_admitted admitted, answered, continues]
  rfl

/-- R150's check refuses a filter code above 2, and an unsound range or an unknown agent under a filter that reads
it. -/
theorem execQuery_of_badField (admitted : Admitted s k .query r)
    (bad : 2 < (r.body.getD 0 0).toNat
      ∨ (r.body.getD 0 0).toNat = 0 ∧ ¬rangeValid (rangeOf (r.body.drop 2)) = true
      ∨ (r.body.getD 0 0).toNat = 1 ∧ 7 < (r.body.getD 1 0).toNat
      ∨ (r.body.getD 0 0).toNat = 2 ∧ 7 < (r.body.getD 1 0).toNat ∧ (r.body.getD 1 0).toNat ≠ 255) :
    exec (.query k) s = .next (replied (agentPort k) r .badField [] (s.serve (agentPort k))) := by
  have refused : filterOf r.body = none := Option.eq_none_iff_forall_ne_some.2 fun f passes => by
    obtain ⟨code, valid⟩ | ⟨code, agent⟩ | ⟨code, agent⟩ := filterOf_eq_some passes
    · simp only [valid, not_true_eq_false, and_false, false_or] at bad
      omega
    · omega
    · omega
  rw [execQuery_admitted admitted, answered, queryAction, refused]
  rfl

theorem execQueryNext_of_closed (admitted : Admitted s k .queryNext r) (closed : s.cursor k = none) :
    exec (.queryNext k) s = .next (replied (agentPort k) r .noCursor [] (s.serve (agentPort k))) := by
  rw [execQueryNext_admitted admitted, answered, queryNextAction, State.serve_cursor, closed]
  rfl

end Taken

/-! #### Where a batch stops -/

section Batch

variable {α : Type} {meets : α → Bool} {n : Nat} {xs : List α}

/-- The n-th match of a list splits it: n matches stand in front. -/
theorem exists_split_at_match {a : α} (nth : (xs.filter meets)[n]? = some a) :
    ∃ front rest, xs = front ++ a :: rest ∧ meets a = true ∧ (front.filter meets).length = n := by
  obtain ⟨inside, rfl⟩ := List.getElem?_eq_some_iff.1 nth
  have cut : xs.filter meets = (xs.filter meets).take n ++ (xs.filter meets)[n] :: (xs.filter meets).drop (n + 1) := by
    rw [← List.drop_eq_getElem_cons inside, List.take_append_drop]
  obtain ⟨before, behind, split, taken, left⟩ := List.filter_eq_append_iff.1 cut
  obtain ⟨skipped, rest, behind_eq, misses, hit, -⟩ := List.filter_eq_cons_iff.1 left
  refine ⟨before ++ skipped, rest, by rw [List.append_assoc, ← behind_eq, ← split], hit, ?_⟩
  rw [List.filter_append, taken, List.filter_eq_nil_iff.2 misses, List.append_nil, List.length_take]
  exact Nat.min_eq_left (Nat.le_of_lt inside)

/-- A batch of n + 1 that is filled ends behind its last match, and takes the first n + 1 matches. -/
theorem takeBatch_of_getElem?_eq_some {a : α} (last : (xs.filter meets)[n]? = some a) :
    ∃ front rest, xs = front ++ a :: rest ∧ takeBatch meets (n + 1) xs = ((xs.filter meets).take (n + 1), rest) := by
  obtain ⟨front, rest, rfl, hit, count⟩ := exists_split_at_match last
  refine ⟨front, rest, rfl, ?_⟩
  rw [takeBatch_full meets front a rest hit n count, List.filter_append, List.filter_cons_of_pos hit,
    ← count, List.take_length_add_append, List.take_one, List.head?_cons, Option.toList_some]

/-- A batch of n + 1 that is not filled takes every match. -/
theorem takeBatch_of_getElem?_eq_none (last : (xs.filter meets)[n]? = none) :
    takeBatch meets (n + 1) xs = ((xs.filter meets).take (n + 1), []) := by
  have few : (xs.filter meets).length ≤ n := List.getElem?_eq_none_iff.1 last
  rw [takeBatch_short meets xs (n + 1) (Nat.lt_succ_of_le few), List.take_of_length_le (Nat.le_succ_of_le few)]

end Batch

/-! #### Batches of slots (R151) -/

section Slots

variable {n : Nat}

theorem drop_finRange_of_split {i : Fin n} {front rest : List (Fin n)} (split : List.finRange n = front ++ i :: rest) :
    rest = (List.finRange n).drop (i.val + 1) := by
  have place : (List.finRange n)[front.length]? = some i := by
    rw [split, List.getElem?_append_right (Nat.le_refl _), Nat.sub_self, List.getElem?_cons_zero]
  obtain ⟨inside, at_front⟩ := List.getElem?_eq_some_iff.1 place
  have length : front.length = i.val := by
    simpa using congrArg Fin.val at_front
  rw [← length, split, ← List.drop_drop, List.drop_left, List.drop_one, List.tail_cons]

/-- The slots from a start on are those not below it. -/
theorem filter_drop_finRange (start : Fin n) (p : Fin n → Bool) :
    ((List.finRange n).drop start.val).filter p = (List.finRange n).filter fun i => decide (start ≤ i) && p i := by
  have cut := congrArg (List.filter fun i => decide (start ≤ i) && p i)
    (List.take_append_drop start.val (List.finRange n))
  have below : ((List.finRange n).take start.val).filter (fun i => decide (start ≤ i) && p i) = [] := by
    refine List.filter_eq_nil_iff.2 fun i mem => ?_
    obtain ⟨m, bound, rfl⟩ := List.mem_take_iff_getElem.1 mem
    simp [Fin.le_def]
    omega
  rw [← cut, List.filter_append, below, List.nil_append]
  refine List.filter_congr fun i mem => ?_
  obtain ⟨m, bound, rfl⟩ := List.mem_drop_iff_getElem.1 mem
  simp [Fin.le_def]

end Slots

/-- The slots from a start on whose live lease meets a filter, ascending (R151). -/
def leaseHits (s : State) (f : Filter) (start : LeaseIdx) : List LeaseIdx :=
  ((List.finRange 64).drop start.val).filter (slotMeets s f)

section Leases

variable {s : State} {f : Filter} {start : LeaseIdx} (k : AgentNo)

/-- Four slots fill the batch, and the scan goes on behind the fourth. -/
theorem takeBatch_slots_of_full {i : LeaseIdx} (fourth : (leaseHits s f start)[3]? = some i) :
    takeBatch (slotMeets s f) 4 ((List.finRange 64).drop start.val) =
      ((leaseHits s f start).take 4, (List.finRange 64).drop (i.val + 1)) := by
  obtain ⟨front, rest, split, taken⟩ := takeBatch_of_getElem?_eq_some fourth
  have whole : List.finRange 64 = ((List.finRange 64).take start.val ++ front) ++ i :: rest := by
    rw [List.append_assoc, ← split, List.take_append_drop]
  rw [taken, drop_finRange_of_split whole]
  rfl

theorem leaseBatch_of_more {i : LeaseIdx} (fourth : (leaseHits s f start)[3]? = some i) (more : i.val < 63) :
    leaseBatch k f start.val s =
      (({ s with draws := s.draws + 1 } : State).setCursor k (some { filter := f, position := .atSlot (i + 1) }),
        { outcome := .ok, body := leaseBatchBytes s ((leaseHits s f start).take 4) }) := by
  have next : i.val + 1 < (List.finRange 64).length := by
    rw [List.length_finRange]
    omega
  have slot : (List.finRange 64)[i.val + 1] = i + 1 := by
    rw [List.getElem_finRange]
    exact Fin.ext (Nat.mod_eq_of_lt (Nat.succ_lt_succ more)).symm
  simp only [leaseBatch, takeBatch_slots_of_full fourth, List.drop_eq_getElem_cons next, slot]

theorem leaseBatch_of_lastSlot (fourth : (leaseHits s f start)[3]? = some 63) :
    leaseBatch k f start.val s =
      (({ s with draws := s.draws + 1 } : State).setCursor k none,
        { outcome := .endOfQuery, body := leaseBatchBytes s ((leaseHits s f start).take 4) }) := by
  have behind : (List.finRange 64).drop ((63 : LeaseIdx).val + 1) = [] :=
    List.drop_eq_nil_iff.2 (Nat.le_of_eq List.length_finRange)
  simp only [leaseBatch, takeBatch_slots_of_full fourth, behind]

theorem leaseBatch_of_few (few : (leaseHits s f start)[3]? = none) :
    leaseBatch k f start.val s =
      (({ s with draws := s.draws + 1 } : State).setCursor k none,
        { outcome := .endOfQuery, body := leaseBatchBytes s ((leaseHits s f start).take 4) }) := by
  have taken : takeBatch (slotMeets s f) 4 ((List.finRange 64).drop start.val) = ((leaseHits s f start).take 4, []) :=
    takeBatch_of_getElem?_eq_none few
  simp only [leaseBatch, taken]

end Leases

/-- Settles O40: both requests run one batch of slots under a cursor, and its fourth match, if there is one, says where
the scan stops. Taking the request marks only the port served, so the table scanned is that of the state before. -/
theorem leaseQueriesScanTheTable : Obligations.LeaseQueriesScanTheTable := by
  refine ⟨?_, fun s k r admitted closed => execQueryNext_of_closed admitted closed, ?_⟩
  · intro s k r admitted filter agent base count bad
    have range : count = 0 ∨ 1048576 < base + count → ¬rangeValid (rangeOf (r.body.drop 2)) = true := by
      intro unsound valid
      obtain ⟨positive, inSpace⟩ : 0 < count ∧ base + count ≤ 1048576 := rangeValid_iff.1 valid
      omega
    exact execQuery_of_badField admitted (bad.imp id (Or.imp (And.imp id range) id))
  · intro s k r f start c request hits answers
    have run : exec c s = .next (answered (agentPort k) r (leaseBatch k f start.val) (s.serve (agentPort k))) := by
      rcases request with ⟨rfl, admitted, rfl, ⟨j, rfl, ignored, body⟩ | ⟨range, ignored, rfl, sound, body⟩⟩
        | ⟨rfl, admitted, opened⟩
      · have width : ignored.length = 5 := by
          have length := admitted.2.2.1
          rw [body] at length
          simpa [num1, ReqKind.bodyLength] using length
        exact execQuery_of_filter admitted (body ▸ filterOf_byAgent width j)
      · exact execQuery_of_filter admitted (body ▸ filterOf_byRange sound ignored)
      · exact execQueryNext_of_cursor admitted opened
    have hits_eq : leaseHits (s.serve (agentPort k)) f start = hits := by
      rw [leaseHits, filter_drop_finRange]
      refine List.filter_congr fun i _ => congrArg (decide (start ≤ i) && ·) ?_
      rw [slotMeets, State.serve_lease]
      cases s.lease i <;> cases f <;> rfl
    have answer {o : ReplyOutcome} {cursor : Option Cursor}
        (batch : leaseBatch k f start.val (s.serve (agentPort k)) =
          (({ s.serve (agentPort k) with draws := s.draws + 1 } : State).setCursor k cursor,
            { outcome := o, body := leaseBatchBytes (s.serve (agentPort k)) (hits.take 4) })) : answers o cursor := by
      rw [answered, batch] at run
      exact run
    rw [← hits_eq] at answer ⊢
    exact ⟨fun i fourth more => answer (leaseBatch_of_more k fourth more),
      fun fourth => answer (leaseBatch_of_lastSlot k fourth), fun few => answer (leaseBatch_of_few k few)⟩

/-! #### Batches of waiters (R153) -/

theorem waiterMeets_waits {who : Option AgentNo} {w : Waiter} :
    waiterMeets (.waits who) w = true ↔ who = none ∨ who = some w.claim.agent := by
  cases who with
  | none => simp [waiterMeets]
  | some j => simp [waiterMeets, eq_comm]

section Waiters

variable (k : AgentNo) (s : State) {f : Filter}

theorem waiterBatch_of_more {front rest : List Waiter} {last : Waiter} (more : rest ≠ [])
    (hit : waiterMeets f last = true) (three : (front.filter (waiterMeets f)).length = 3) :
    waiterBatch k f (front ++ last :: rest) s =
      (({ s with draws := s.draws + 1 } : State).setCursor k (some { filter := f, position := .afterWaiter (keep last) }),
        { outcome := .ok, body := waiterBatchBytes s (front.filter (waiterMeets f) ++ [last]) }) := by
  obtain ⟨w, behind, rfl⟩ := List.exists_cons_of_ne_nil more
  simp only [waiterBatch, takeBatch_full _ front last _ hit 3 three, List.getLast?_concat]

/-- A batch that leaves no waiter unexamined closes the cursor. -/
theorem waiterBatch_of_examined {ws taken : List Waiter} (batch : takeBatch (waiterMeets f) 4 ws = (taken, [])) :
    waiterBatch k f ws s =
      (({ s with draws := s.draws + 1 } : State).setCursor k none,
        { outcome := .endOfQuery, body := waiterBatchBytes s taken }) := by
  simp only [waiterBatch, batch]

end Waiters

/-- Settles O41: both requests run one batch of waiters under a cursor, and the walk ends behind the fourth match or at
the end of the list. -/
theorem waiterQueriesWalkTheList : Obligations.WaiterQueriesWalkTheList := by
  intro s k r who walked c request meets answers
  have run : exec c s = .next (answered (agentPort k) r (waiterBatch k (.waits who) walked) (s.serve (agentPort k))) := by
    rcases request with ⟨rfl, admitted, rfl, ignored, body⟩
      | ⟨rfl, admitted, ⟨opened, rfl⟩ | ⟨kept, opened, rfl⟩⟩
    · have length := admitted.2.2.1
      rw [body] at length
      cases who with
      | none =>
        have width : ignored.length = 5 := by simpa [ReqKind.bodyLength] using length
        exact execQuery_of_filter admitted (body ▸ filterOf_waits_any width)
      | some j =>
        have width : ignored.length = 5 := by simpa [num1, ReqKind.bodyLength] using length
        exact execQuery_of_filter admitted (body ▸ filterOf_waits_agent width j)
    · exact execQueryNext_of_cursor admitted opened
    · exact execQueryNext_of_cursor admitted opened
  have matched (ws : List Waiter) : (ws.filter fun w => decide (meets w)) = ws.filter (waiterMeets (.waits who)) :=
    List.filter_congr fun w _ => Bool.eq_iff_iff.2 (decide_eq_true_iff.trans waiterMeets_waits.symm)
  have answer {o : ReplyOutcome} {taken : List Waiter} {cursor : Option Cursor}
      (batch : waiterBatch k (.waits who) walked (s.serve (agentPort k)) =
        (({ s.serve (agentPort k) with draws := s.draws + 1 } : State).setCursor k cursor,
          { outcome := o, body := waiterBatchBytes (s.serve (agentPort k)) taken })) : answers o taken cursor := by
    rw [answered, batch] at run
    exact run
  simp only [matched]
  refine ⟨?_, fun few => ?_, ?_⟩
  · rintro front last rest rfl more hit three
    exact answer (waiterBatch_of_more k _ more (waiterMeets_waits.2 hit) three)
  · exact answer (waiterBatch_of_examined k _ (takeBatch_short _ walked 4 few))
  · rintro front last rfl hit three
    have found := waiterMeets_waits.2 hit
    rw [List.filter_append, List.filter_cons_of_pos found, List.filter_nil]
    exact answer (waiterBatch_of_examined k _ (takeBatch_full _ front last [] found 3 three))

end Sys2Proof.Machine

/-! ### The edges of SEL# (R162, R164, R172) -/

namespace Sys2Proof.Machine

/-! #### The falling edge -/

theorem collectable_of_not_answered {slots : PortSlots} (unanswered : ∀ r, slots ≠ .answered r) :
    collectable slots = none := by
  cases slots with
  | idle => rfl
  | pending r => rfl
  | answered r => exact absurd rfl (unanswered r)

theorem selFalls_of_low {s : State} {p : PortNo} (low : (s.port p).selLow = true) : selFalls p s = s :=
  if_pos low

theorem selFalls_of_asserted {s : State} {p : PortNo} (high : (s.port p).selLow = false)
    (asserted : s.rstAsserted = true) :
    selFalls p s = s.setPort p { s.port p with selLow := true, opened := none } := by
  simp only [selFalls, high, asserted, if_true, if_false, Bool.false_eq_true]

theorem selFalls_of_released {s : State} {p : PortNo} (high : (s.port p).selLow = false)
    (released : s.rstAsserted = false) :
    selFalls p s = s.setPort p { s.port p with
      selLow := true, opened := some { status := statusByte s p, reply := collectable (s.port p).slots } } := by
  simp only [selFalls, high, released, if_false, Bool.false_eq_true]

theorem selFalls_rstAsserted (p : PortNo) (s : State) : (selFalls p s).rstAsserted = s.rstAsserted := by
  cases level : (s.port p).selLow with
  | true => rw [selFalls_of_low level]
  | false => simp only [selFalls, level, if_false, Bool.false_eq_true, State.setPort_rstAsserted]

theorem selFalls_selLow (p : PortNo) (s : State) : ((selFalls p s).port p).selLow = true := by
  cases level : (s.port p).selLow with
  | true => rw [selFalls_of_low level, level]
  | false => simp only [selFalls, level, if_false, Bool.false_eq_true, State.setPort_port_self]

/-- The four commands open a transaction by the same falling edge (R164). -/
theorem exec_opens {c : Instr} {p : PortNo} (s : State)
    (row : c ∈ [Instr.send p .opens, .collect p .opens, .portReset p .opens, .ignoredTransaction p .opens]) :
    exec c s = .next (selFalls p s) := by
  simp only [List.mem_cons, List.not_mem_nil, or_false] at row
  obtain rfl | rfl | rfl | rfl := row <;> rfl

/-! #### The rising edge -/

theorem transact_closes_of_high {s : State} {p : PortNo} {kind : Option TransactionKind} {bits : List Bool}
    (act : List Bool → Opened → State → State) (high : (s.port p).selLow = false) :
    transact p kind act (.closes bits) s = s := by
  simp only [transact, selRises, high, if_true]

/-- What a kind of transaction does at its end leaves the level of SEL# at port p. -/
def KeepsSelLow (p : PortNo) (act : List Bool → Opened → State → State) : Prop :=
  ∀ bits o s, ((act bits o s).port p).selLow = (s.port p).selLow

theorem shifts_keepsSelLow (p : PortNo) (payload : List Byte) :
    KeepsSelLow p fun bits o s => shifts p o payload bits s := by
  intro bits o s
  simp only [shifts, State.setPort_port_self]

theorem receiveFrame_selLow (bytes : List Byte) (q : Port) : (receiveFrame bytes q).selLow = q.selLow := by
  unfold receiveFrame
  cases judgeFrame bytes with
  | good r => cases q.slots <;> rfl
  | _ => rfl

theorem closeSend_keepsSelLow (p : PortNo) : KeepsSelLow p (closeSend p) := by
  intro bits o s
  rw [closeSend, shifts_keepsSelLow p [] bits o, State.setPort_port_self, receiveFrame_selLow]

theorem closeCollect_keepsSelLow (p : PortNo) : KeepsSelLow p (closeCollect p) := by
  intro bits o s
  have shifted := shifts_keepsSelLow p (o.reply.getD emptyMarker) bits o s
  simp only [closeCollect]
  split
  · rw [State.setPort_port_self]
    exact shifted
  · exact shifted

theorem resetPort_selLow (p : PortNo) (s : State) : ((resetPort p s).port p).selLow = (s.port p).selLow := by
  simp only [resetPort]
  cases portAgent p <;> simp only [State.setCursor_port, State.setPort_port_self]

theorem closePortReset_keepsSelLow (p : PortNo) : KeepsSelLow p (closePortReset p) := by
  intro bits o s
  rw [closePortReset, shifts_keepsSelLow p [] bits o, resetPort_selLow]

/-- Each command closes by the rising edge of a kind of its own, the one that WellFormed asks of its first byte. -/
theorem exec_closes {c : Instr} {p : PortNo} {bits : List Bool}
    (row : c ∈ [Instr.send p (.closes bits), .collect p (.closes bits), .portReset p (.closes bits),
      .ignoredTransaction p (.closes bits)]) :
    ∃ kind act, (∀ s, exec c s = .next (transact p kind act (.closes bits) s))
      ∧ wellFormed c = decide (transactionKind bits = kind) ∧ KeepsSelLow p act := by
  simp only [List.mem_cons, List.not_mem_nil, or_false] at row
  obtain rfl | rfl | rfl | rfl := row
  · exact ⟨_, _, fun _ => rfl, rfl, closeSend_keepsSelLow p⟩
  · exact ⟨_, _, fun _ => rfl, rfl, closeCollect_keepsSelLow p⟩
  · exact ⟨_, _, fun _ => rfl, rfl, closePortReset_keepsSelLow p⟩
  · exact ⟨_, _, fun _ => rfl, rfl, shifts_keepsSelLow p []⟩

/-- SEL# is high after a rising edge. -/
theorem transact_closes_selLow {p : PortNo} {act : List Bool → Opened → State → State} (keeps : KeepsSelLow p act)
    (kind : Option TransactionKind) (bits : List Bool) (s : State) :
    ((transact p kind act (.closes bits) s).port p).selLow = false := by
  cases level : (s.port p).selLow with
  | false => rw [transact_closes_of_high act level, level]
  | true =>
    cases opened : (s.port p).opened with
    | none => rw [transact_closes_idle act level (.inl opened), State.setPort_port_self]
    | some o =>
      by_cases own : transactionKind bits = kind
      · rw [transact_closes act level opened own, keeps, State.setPort_port_self]
      · rw [transact_closes_idle act level (.inr own), State.setPort_port_self]

/-! #### The drive of SDO -/

theorem sdoDriven_of_asserted {s : State} (p : PortNo) (asserted : s.rstAsserted = true) : sdoDriven s p = false := by
  simp only [sdoDriven, asserted, Bool.not_true, Bool.false_and]

theorem sdoDriven_of_high {s : State} {p : PortNo} (high : (s.port p).selLow = false) : sdoDriven s p = false := by
  rw [sdoDriven, high, Bool.and_false]

theorem sdoDriven_of_low {s : State} {p : PortNo} (low : (s.port p).selLow = true) :
    sdoDriven s p = true ↔ s.rstAsserted = false := by
  rw [sdoDriven, low, Bool.and_true, Bool.not_eq_true']

/-- Settles O7: the four commands share the falling edge, and their rising edges differ only in what the command's own
kind does, which leaves the level of SEL#. -/
theorem transactionsOpenAndClose : Obligations.TransactionsOpenAndClose := by
  intro s p bits
  refine ⟨sdoDriven_of_asserted p, fun c row => ?_, fun c row => ?_, ?_⟩
  · rw [exec_opens s row]
    refine ⟨?_, fun low => ?_, fun high asserted => ?_, fun high released => ?_⟩
    · rintro _ ⟨⟩
      rw [sdoDriven_of_low (selFalls_selLow p s), selFalls_rstAsserted]
    · rw [selFalls_of_low low]
    · rw [selFalls_of_asserted high asserted]
    · rw [selFalls_of_released high released]
      refine ⟨fun r answered => ?_, fun unanswered => ?_⟩
      · rw [answered, collectable]
      · rw [collectable_of_not_answered unanswered]
  · obtain ⟨kind, act, run, named, keeps⟩ := exec_closes row
    rw [run, named, decide_eq_false_iff_not]
    refine ⟨?_, fun high => ?_, fun low idle => ?_⟩
    · rintro _ ⟨⟩
      exact sdoDriven_of_high (transact_closes_selLow keeps kind bits s)
    · rw [transact_closes_of_high act high]
    · rw [transact_closes_idle act low idle]
  · rintro _ ⟨⟩
    exact ⟨rfl, rfl, rfl, rfl⟩

end Sys2Proof.Machine

/-! ### The end of a transaction (R163, R164, R166 to R169) -/

namespace Sys2Proof.Machine

/-! #### What the port shifts -/

/-- What a transaction shifts is a field of the port alone. -/
theorem shifts_setPort (p : PortNo) (o : Opened) (payload : List Byte) (bits : List Bool) (s : State) (q : Port) :
    shifts p o payload bits (s.setPort p q) =
      s.setPort p { q with sdo := shiftOut o.status payload bits.length } := by
  rw [shifts, State.setPort_port_self, State.setPort_setPort]

/-- A kind byte and n bits after it are 8 + n bits. -/
theorem length_linkBits_byte_append (b : Byte) (bits : List Bool) :
    (linkBits [b] ++ bits).length = 8 + bits.length := by
  rw [List.length_append, linkBits_length, List.length_singleton, Nat.mul_one]

/-- The empty marker is 00h throughout, so it shifts as no payload at all does (R168). -/
theorem shiftOut_emptyMarker (status : Byte) (n : Nat) :
    shiftOut status emptyMarker (8 + n) = linkBits [status] ++ List.replicate n false := by
  have marker : linkBits (status :: emptyMarker) = linkBits [status] ++ List.replicate 40 false := rfl
  rw [shiftOut, marker, List.append_assoc, List.replicate_append_replicate, List.take_append,
    List.take_of_length_le (by rw [linkBits_length, List.length_singleton]; omega), linkBits_length,
    List.length_singleton, List.take_replicate]
  congr 2
  omega

theorem length_linkBits_cons (status : Byte) (payload : List Byte) :
    (linkBits (status :: payload)).length = 8 + 8 * payload.length := by
  rw [linkBits_length, List.length_cons]
  omega

theorem shiftOut_of_whole (status : Byte) {payload : List Byte} {n : Nat} (whole : 8 * payload.length ≤ n) :
    shiftOut status payload (8 + n) =
      linkBits (status :: payload) ++ List.replicate (n - 8 * payload.length) false := by
  have width := length_linkBits_cons status payload
  rw [shiftOut, List.take_append, List.take_of_length_le (by omega), width, List.take_replicate]
  congr 2
  omega

theorem shiftOut_of_part (status : Byte) {payload : List Byte} {n : Nat} (part : n < 8 * payload.length) :
    shiftOut status payload (8 + n) = (linkBits (status :: payload)).take (8 + n) := by
  have width := length_linkBits_cons status payload
  rw [shiftOut, List.take_append_of_le_length (by omega)]

/-! #### SEND -/

theorem closeSend_setPort (p : PortNo) (bits : List Bool) (o : Opened) (s : State) (q : Port) :
    closeSend p bits o (s.setPort p q) =
      s.setPort p { receiveFrame (wholeBytes (afterKind bits)) q with sdo := shiftOut o.status [] bits.length } := by
  rw [closeSend, State.setPort_port_self, State.setPort_setPort, shifts_setPort]

/-- The end of a SEND: the port judges the bytes after the kind byte, and shifted 00h after its status byte. -/
theorem exec_send_closes {s : State} {p : PortNo} {o : Opened} (bits : List Bool) (low : (s.port p).selLow = true)
    (opened : (s.port p).opened = some o) :
    exec (.send p (.closes (linkBits [0x53] ++ bits))) s =
      .next (s.setPort p { receiveFrame (wholeBytes bits) { s.port p with selLow := false, opened := none } with
        sdo := linkBits [o.status] ++ List.replicate bits.length false }) := by
  have run (sdi : List Bool) : exec (.send p (.closes sdi)) s =
    .next (transact p (some .send) (closeSend p) (.closes sdi) s) := rfl
  rw [run, transact_closes (closeSend p) low opened (transactionKind_send bits), closeSend_setPort, afterKind_byte,
    length_linkBits_byte_append, shiftOut_nil]

section Judged

variable {bytes : List Byte} {q : Port}

theorem receiveFrame_of_runt (judged : judgeFrame bytes = .runt) :
    receiveFrame bytes q = { q with lastSend := .runt } := by
  simp only [receiveFrame, judged]

theorem receiveFrame_of_long (judged : judgeFrame bytes = .long) :
    receiveFrame bytes q = { q with lastSend := .long } := by
  simp only [receiveFrame, judged]

theorem receiveFrame_of_crc (judged : judgeFrame bytes = .crc) :
    receiveFrame bytes q = { q with lastSend := .crc } := by
  simp only [receiveFrame, judged]

variable {r : Request}

theorem receiveFrame_of_good_idle (judged : judgeFrame bytes = .good r) (idle : q.slots = .idle) :
    receiveFrame bytes q = { q with lastSend := .good, slots := .pending r, overrun := false } := by
  simp only [receiveFrame, judged, idle]

theorem receiveFrame_of_good_busy (judged : judgeFrame bytes = .good r) (busy : q.slots ≠ .idle) :
    receiveFrame bytes q = { q with lastSend := .good, overrun := true } := by
  cases slots : q.slots with
  | idle => exact absurd slots busy
  | pending _ => simp only [receiveFrame, judged, slots]
  | answered _ => simp only [receiveFrame, judged, slots]

end Judged

/-- Settles O8: R166's judgment, read by the positions of the bytes, decides what the rising edge writes. -/
theorem sendJudgesAndStoresFrames : Obligations.SendJudgesAndStoresFrames := by
  intro bits send bytes len runt long crc request s p o low opened closed
  have run : send p s = _ := exec_send_closes bits low opened
  have judged : judgeFrame bytes = _ := judgeFrame_spec bytes
  refine ⟨fun hRunt => ?_, fun full hLong => ?_, fun full fits hCrc => ?_, fun full fits sound idle => ?_,
    fun full fits sound busy => ?_⟩
  · rw [run, receiveFrame_of_runt (judged.trans (if_pos hRunt))]
  · rw [run, receiveFrame_of_long (judged.trans ((if_neg full).trans (if_pos hLong)))]
  · rw [run, receiveFrame_of_crc (judged.trans ((if_neg full).trans ((if_neg fits).trans (if_pos hCrc))))]
  · have good := judged.trans ((if_neg full).trans ((if_neg fits).trans (if_neg sound)))
    rw [run, receiveFrame_of_good_idle (q := { s.port p with selLow := false, opened := none }) good idle]
  · have good := judged.trans ((if_neg full).trans ((if_neg fits).trans (if_neg sound)))
    rw [run, receiveFrame_of_good_busy (q := { s.port p with selLow := false, opened := none }) good busy]

/-- R166 judges the frame that its sender lays out good, and reads the request back (R173). -/
theorem judgeFrame_requestFrame {r : Request} (short : r.body.length ≤ 32) :
    judgeFrame (requestFrame r) = .good r := by
  obtain ⟨kind, seqTag, epoch, body⟩ := r
  have len : (BitVec.ofNat 8 body.length).toNat = body.length :=
    Nat.mod_eq_of_lt (Nat.lt_of_le_of_lt short (by decide))
  have frame : requestFrame { kind, seqTag, epoch, body } =
      kind :: seqTag :: BitVec.ofNat 8 (epoch.toNat / 256) :: BitVec.ofNat 8 epoch.toNat
        :: BitVec.ofNat 8 body.length
        :: (body ++ [crc8 ([kind, seqTag] ++ num2 epoch.toNat ++ num1 body.length ++ body)]) := rfl
  simp only [frame, judgeFrame, len, tag_of_num2, List.length_append, List.length_singleton, List.drop_left,
    List.take_left, Nat.lt_irrefl, or_false, if_false, Nat.not_lt.2 short]
  exact if_neg fun wrong => wrong rfl

/-- Settles O9: the bytes are read back from their bits, and the frame from its bytes. -/
theorem requestFrameReadsBack : Obligations.RequestFrameReadsBack := by
  intro r extra short stray
  rw [wholeBytes_linkBits _ extra stray, judgeFrame_requestFrame short]

/-! #### COLLECT -/

theorem closeCollect_setPort_of_done {o : Opened} {bits : List Bool}
    (done : collectDone o (afterKind bits).length = true) (p : PortNo) (s : State) (q : Port) :
    closeCollect p bits o (s.setPort p q) =
      s.setPort p { q with slots := .idle, sdo := shiftOut o.status (o.reply.getD emptyMarker) bits.length } := by
  simp only [closeCollect, done, if_true, shifts_setPort, State.setPort_port_self, State.setPort_setPort]

theorem closeCollect_setPort_of_not_done {o : Opened} {bits : List Bool}
    (part : collectDone o (afterKind bits).length = false) (p : PortNo) (s : State) (q : Port) :
    closeCollect p bits o (s.setPort p q) =
      s.setPort p { q with sdo := shiftOut o.status (o.reply.getD emptyMarker) bits.length } := by
  simp only [closeCollect, part, if_false, Bool.false_eq_true, shifts_setPort]

/-- The whole frame was clocked out where 8 bits were for each of its bytes. -/
theorem collectDone_reply (status : Byte) (frame : List Byte) (n : Nat) :
    collectDone { status, reply := some frame } n = decide (8 * frame.length ≤ n) := by
  simp only [collectDone, Nat.le_div_iff_mul_le (Nat.succ_pos 7), Nat.mul_comm]

section Collect

variable {s : State} {p : PortNo} {o : Opened} (low : (s.port p).selLow = true) (opened : (s.port p).opened = some o)
include low opened

theorem exec_collect_closes (bits : List Bool) :
    exec (.collect p (.closes (linkBits [0x43] ++ bits))) s =
      .next (closeCollect p (linkBits [0x43] ++ bits) o
        (s.setPort p { s.port p with selLow := false, opened := none })) := by
  have run (sdi : List Bool) : exec (.collect p (.closes sdi)) s =
    .next (transact p (some .collect) (closeCollect p) (.closes sdi) s) := rfl
  rw [run, transact_closes (closeCollect p) low opened (transactionKind_collect bits)]

theorem exec_collect_of_done {bits : List Bool} (done : collectDone o bits.length = true) :
    exec (.collect p (.closes (linkBits [0x43] ++ bits))) s =
      .next (s.setPort p { s.port p with
        slots := .idle, selLow := false, opened := none
        sdo := shiftOut o.status (o.reply.getD emptyMarker) (8 + bits.length) }) := by
  rw [exec_collect_closes low opened, closeCollect_setPort_of_done done, length_linkBits_byte_append]

theorem exec_collect_of_not_done {bits : List Bool} (part : collectDone o bits.length = false) :
    exec (.collect p (.closes (linkBits [0x43] ++ bits))) s =
      .next (s.setPort p { s.port p with
        selLow := false, opened := none
        sdo := shiftOut o.status (o.reply.getD emptyMarker) (8 + bits.length) }) := by
  rw [exec_collect_closes low opened, closeCollect_setPort_of_not_done part, length_linkBits_byte_append]

end Collect

/-- Settles O10: the empty marker and a frame are the two payloads, and the number of bits clocked tells whether the
frame went out whole. -/
theorem collectShiftsTheReply : Obligations.CollectShiftsTheReply := by
  intro s p status bits low n collect
  refine ⟨fun opened => ?_, fun frame opened => ⟨fun whole => ?_, fun part => ?_⟩⟩
  · exact (exec_collect_of_not_done low opened rfl).trans (by rw [← shiftOut_emptyMarker]; rfl)
  · have done := (collectDone_reply status frame n).trans (decide_eq_true whole)
    exact (exec_collect_of_done low opened done).trans (by rw [← shiftOut_of_whole status whole]; rfl)
  · have unfinished := (collectDone_reply status frame n).trans (decide_eq_false (Nat.not_le.2 part))
    exact (exec_collect_of_not_done low opened unfinished).trans (by rw [← shiftOut_of_part status part]; rfl)

/-! #### PORT_RESET and ignored transactions -/

theorem resetPort_agentPort (k : AgentNo) (s : State) :
    resetPort (agentPort k) s =
      (s.setPort (agentPort k)
        { s.port (agentPort k) with slots := .idle, overrun := false, lastSend := .good }).setCursor k none := by
  simp only [resetPort, portAgent_agentPort]

theorem resetPort_checkPort (s : State) :
    resetPort checkPort s =
      s.setPort checkPort { s.port checkPort with slots := .idle, overrun := false, lastSend := .good } := by
  simp only [resetPort, portAgent_checkPort]

/-- A port and a cursor are written in either order. -/
theorem setPort_setCursor (s : State) (p : PortNo) (q : Port) (k : AgentNo) (c : Option Cursor) :
    (s.setCursor k c).setPort p q = (s.setPort p q).setCursor k c := rfl

/-- Settles O11: R169's steps write the port, and at an agent port its cursor; the transaction then records what it
shifted. -/
theorem portResetEmptiesThePort : Obligations.PortResetEmptiesThePort := by
  intro s p o bits low opened after portReset
  have run : portReset = .next (closePortReset p (linkBits [0x52] ++ bits) o
      (s.setPort p { s.port p with selLow := false, opened := none })) :=
    congrArg Host.Outcome.next (transact_closes (closePortReset p) low opened (transactionKind_portReset bits))
  have shifted : shiftOut o.status [] (linkBits [0x52] ++ bits).length =
      linkBits [o.status] ++ List.replicate bits.length false := by
    rw [length_linkBits_byte_append, shiftOut_nil]
  constructor
  · rintro k rfl
    rw [run, closePortReset, resetPort_agentPort, State.setPort_port_self, State.setPort_setPort, shifts,
      State.setCursor_port, State.setPort_port_self, setPort_setCursor, State.setPort_setPort, shifted]
  · rintro rfl
    rw [run, closePortReset, resetPort_checkPort, State.setPort_port_self, State.setPort_setPort, shifts_setPort,
      shifted]

/-- Settles O12: such a transaction is of no kind, and its end writes what was shifted alone. -/
theorem ignoredTransactionOnlyShifts : Obligations.IgnoredTransactionOnlyShifts := by
  intro s p o bits ignored low opened
  have run : exec (.ignoredTransaction p (.closes bits)) s =
      .next (transact p none (fun bits o t => shifts p o [] bits t) (.closes bits) s) := rfl
  rw [run, transact_closes _ low opened (transactionKind_none ignored), shifts_setPort, shiftOut]

end Sys2Proof.Machine

/-! ### The intake arbiter (R170) -/

namespace Sys2Proof.Machine

theorem isNoticeKind_iff (kind : Byte) : isNoticeKind kind = true ↔ kind ∈ [(0x11 : Byte), 0x12, 0x13] := by
  revert kind
  decide +kernel

theorem pendingRequest_eq_some {slots : PortSlots} {r : Request} :
    pendingRequest slots = some r ↔ slots = .pending r := by
  cases slots <;> simp [pendingRequest]

/-- A request that waits goes through the arbiter unless it is a notice request at an agent port (R170). -/
theorem engineBound_iff {s : State} {p : PortNo} :
    engineBound s p = true ↔
      ∃ r, (s.port p).slots = .pending r ∧ (p = checkPort ∨ r.kind ∉ [(0x11 : Byte), 0x12, 0x13]) := by
  simp only [← pendingRequest_eq_some, ← isNoticeKind_iff, engineBound]
  cases pendingRequest (s.port p).slots <;> simp

/-- The arbiter picks the engine-bound port nearest after the last served: the distance is taken round the ring. -/
theorem arbiterPick_eq_some {s : State} {p : PortNo} :
    arbiterPick s = some p ↔ engineBound s p = true
      ∧ ∀ q, engineBound s q = true → p - (s.lastServed + 1) ≤ q - (s.lastServed + 1) := by
  rw [arbiterPick, List.find?_map, Option.map_eq_some_iff]
  constructor
  · rintro ⟨j, found, rfl⟩
    obtain ⟨bound, passed⟩ := find?_finRange_eq_some.1 found
    refine ⟨bound, fun q other => not_lt.1 fun nearer => ?_⟩
    rw [add_sub_cancel_left] at nearer
    have unbound := passed _ nearer
    rw [Function.comp_apply, add_sub_cancel, other] at unbound
    cases unbound
  · rintro ⟨bound, nearest⟩
    refine ⟨p - (s.lastServed + 1), find?_finRange_eq_some.2 ⟨?_, fun j nearer => ?_⟩, add_sub_cancel _ _⟩
    · rwa [Function.comp_apply, add_sub_cancel]
    · refine Bool.eq_false_iff.2 fun other => absurd nearer (not_lt.2 ?_)
      have far := nearest _ other
      rwa [add_sub_cancel_left] at far

/-- The walk round the ring comes to every port. -/
theorem arbiterPick_eq_none {s : State} : arbiterPick s = none ↔ ∀ p, engineBound s p = false := by
  rw [arbiterPick, List.find?_map, Option.map_eq_none_iff, find?_finRange_eq_none]
  constructor
  · intro unbound p
    have reached := unbound (p - (s.lastServed + 1))
    rwa [Function.comp_apply, add_sub_cancel] at reached
  · exact fun unbound j => unbound _

/-- Settles O13: the search round the ring, and the condition that it tests. -/
theorem arbiterIsRoundRobin : Obligations.ArbiterIsRoundRobin := by
  intro s bound
  have bound_iff (p : PortNo) : bound p ↔ engineBound s p = true := engineBound_iff.symm
  constructor
  · intro p
    simp only [bound_iff]
    exact arbiterPick_eq_some
  · simp only [bound_iff, Bool.not_eq_true]
    exact arbiterPick_eq_none

end Sys2Proof.Machine

/-! ### One step (R81, R82, R85, R94; log entry 6) -/

namespace Sys2Proof.Machine

section Step

variable {s : State}

theorem step_of_waiting {c : Instr} {rest : List Instr} (waiting : s.pending = c :: rest) :
    step s = exec c { s with pending := rest } := by
  simp only [step, waiting]

theorem step_of_empty (empty : s.pending = []) : step s = .next (passRefclk s) := by
  simp only [step, empty]

theorem passRefclk_of_stopped (stopped : s.rstAsserted = true ∨ s.tickPeriod = 0) : passRefclk s = s :=
  if_pos stopped

section Running

variable (released : s.rstAsserted = false) (ticking : s.tickPeriod ≠ 0)
include released ticking

theorem not_stopped_of_running : ¬(s.rstAsserted = true ∨ s.tickPeriod = 0) :=
  not_or.2 ⟨Bool.eq_false_iff.1 released, ticking⟩

/-- A cycle inside a microsecond moves the divider alone. -/
theorem passRefclk_of_inside (inside : s.refPhase + 1 < divisor s) :
    passRefclk s = { s with refPhase := s.refPhase + 1 } := by
  rw [passRefclk, if_neg (not_stopped_of_running released ticking), if_pos inside]

/-- A cycle that fills a microsecond inside the interval counts it. -/
theorem passRefclk_of_microsecond (full : divisor s ≤ s.refPhase + 1) (left : s.elapsed + 1 < s.tickPeriod) :
    passRefclk s = { s with refPhase := 0, elapsed := s.elapsed + 1 } := by
  rw [passRefclk, if_neg (not_stopped_of_running released ticking), if_neg (Nat.not_lt.2 full), if_pos left]

/-- A cycle that fills the last microsecond of the interval makes a tick. -/
theorem passRefclk_of_period (full : divisor s ≤ s.refPhase + 1) (reached : s.tickPeriod ≤ s.elapsed + 1) :
    passRefclk s = expireInterval s := by
  rw [passRefclk, if_neg (not_stopped_of_running released ticking), if_neg (Nat.not_lt.2 full),
    if_neg (Nat.not_lt.2 reached)]

end Running

end Step

/-- Settles O1: the queue of the state given is not empty. -/
theorem stepTakesFrontCommand : Obligations.StepTakesFrontCommand :=
  fun _ _ _ => step_of_waiting rfl

/-- Settles O2: on an empty queue one cycle passes, and the four cases of a cycle. -/
theorem emptyQueueStepIsOneRefclkCycle : Obligations.EmptyQueueStepIsOneRefclkCycle := by
  intro s empty
  rw [step_of_empty empty]
  exact ⟨fun stopped => congrArg Host.Outcome.next (passRefclk_of_stopped stopped), fun released ticking =>
    ⟨fun inside => congrArg Host.Outcome.next (passRefclk_of_inside released ticking inside),
      fun full left => congrArg Host.Outcome.next (passRefclk_of_microsecond released ticking full left),
      fun full reached => congrArg Host.Outcome.next (passRefclk_of_period released ticking full reached)⟩⟩

end Sys2Proof.Machine

/-! ### Every command completes, and leaves the waiting commands (log entries 1, 7 and 11)

No operation writes the queue. Most are record updates of other fields, which keep it by definition; for the rest, and
for each action, a lemma says so once. Each way of taking a command then answers a next state from every state. -/

namespace Sys2Proof.Machine

/-! #### Operations -/

section Operations

variable (s : State)

theorem postAll_pending (arrival : List (AgentNo × Notice)) : (postAll arrival s).pending = s.pending := by
  rw [postAll_frame]

theorem reexamine_pending : (reexamine s).1.pending = s.pending :=
  reexamine_keeps (·.pending = s.pending) (fun _ _ _ same _ => same) (fun _ _ _ same => same) s rfl

theorem recallFor_pending (w : Waiter) : (recallFor w s).1.pending = s.pending :=
  recallFor_keeps (·.pending = s.pending) w (fun _ _ _ same => same) s rfl

theorem endLease_pending (cause : EndCause) (i : LeaseIdx) : (endLease cause i s).pending = s.pending := by
  cases content : s.lease i with
  | free m => rw [endLease_free cause content]
  | held l => rw [endLease_held cause content, State.setAgent_pending, State.setLease_pending]

theorem endLeasesOf_pending (k : AgentNo) (cause : EndCause) : (endLeasesOf k cause s).pending = s.pending :=
  endLeasesOf_keeps (·.pending = s.pending) cause (fun _ _ same => (endLease_pending _ _ _).trans same) k s rfl

theorem dropWaitersOf_pending (k : AgentNo) : (dropWaitersOf k s).pending = s.pending :=
  dropWaitersOf_keeps (·.pending = s.pending) (fun _ _ same => same) k s rfl

theorem fence_pending (k : AgentNo) (cause : FenceCause) : (fence k cause s).pending = s.pending :=
  fence_keeps (·.pending = s.pending) (fun _ _ _ same _ => same) (fun _ _ same => (endLease_pending _ _ _).trans same)
    (fun _ _ same => same) (fun _ _ same => same) (fun _ _ _ same => same) k cause s rfl

theorem expireLease_pending (i : LeaseIdx) (l : Lease) : (expireLease i l s).pending = s.pending :=
  endLease_pending s .expired i

theorem lapseGrace_pending (i : LeaseIdx) (l : Lease) : (lapseGrace i l s).pending = s.pending :=
  (fence_pending _ _ _).trans (endLease_pending s .revoked i)

theorem countdownSlot_pending (i : LeaseIdx) : (countdownSlot i s).pending = s.pending := by
  unfold countdownSlot
  split
  · rfl
  · split
    · split
      · exact expireLease_pending _ _ _
      · exact lapseGrace_pending _ _ _
    · dsimp only
      split <;> rfl

theorem countdownWaiter_pending (w : Waiter) : (countdownWaiter w s).pending = s.pending := by
  unfold countdownWaiter
  split
  · rfl
  · split <;> rfl

theorem leaseCountdown_pending : (leaseCountdown s).pending = s.pending :=
  leaseCountdown_keeps (·.pending = s.pending) (fun _ _ same => (countdownSlot_pending _ _).trans same) s rfl

theorem waitCountdown_pending : (waitCountdown s).pending = s.pending :=
  waitCountdown_keeps (·.pending = s.pending) (fun _ _ same => (countdownWaiter_pending _ _).trans same) s rfl

theorem tickStages_pending : (tickStages s).pending = s.pending := by
  rw [tickStages, reexamine_pending, waitCountdown_pending, leaseCountdown_pending]

end Operations

/-! #### Actions on a request -/

section Actions

variable (k : AgentNo) (body : List Byte) (s : State)

theorem settleClaim_pending (c : Claim) (limit : Nat) : (settleClaim c limit s).1.pending = s.pending := by
  unfold settleClaim
  split
  · rfl
  · split
    · rfl
    split
    · rfl
    split
    · rfl
    · exact recallFor_pending _ _

theorem acquireAction_pending : (acquireAction k body s).1.pending = s.pending := by
  unfold acquireAction
  split
  · rfl
  split
  · rfl
  split
  · rfl
  · exact settleClaim_pending _ _ _

theorem cancelAction_pending : (cancelAction k body s).1.pending = s.pending := by
  unfold cancelAction
  split
  · rfl
  split
  · rfl
  · split <;> rfl
  · split
    · exact reexamine_pending _
    · rfl

/-- Of a request that names a lease, only its work on the agent's own live lease is left to show. -/
theorem onHeldLease_pending (id : LeaseId) {act : Lease → Action} (acts : ∀ l, (act l s).1.pending = s.pending) :
    (onHeldLease k id act s).1.pending = s.pending := by
  unfold onHeldLease
  split
  · rfl
  · rfl
  · split
    · exact acts _
    · rfl

theorem renewAction_pending : (renewAction k body s).1.pending = s.pending := by
  unfold renewAction
  split
  · refine onHeldLease_pending k s _ fun l => ?_
    unfold renewLease
    dsimp only
    repeat' split
    all_goals rfl
  · rfl

theorem trimAction_pending : (trimAction k body s).1.pending = s.pending := by
  unfold trimAction
  split
  · refine onHeldLease_pending k s _ fun l => ?_
    unfold trimLease
    split
    · exact reexamine_pending _
    · rfl
  · rfl

theorem downgradeAction_pending : (downgradeAction k body s).1.pending = s.pending := by
  refine onHeldLease_pending k s _ fun l => ?_
  unfold downgradeLease
  split
  · exact reexamine_pending _
  · rfl

theorem upgradeAction_pending : (upgradeAction k body s).1.pending = s.pending := by
  refine onHeldLease_pending k s _ fun l => ?_
  unfold upgradeLease
  repeat' split
  all_goals rfl

theorem releaseAction_pending : (releaseAction k body s).1.pending = s.pending :=
  onHeldLease_pending k s _ fun _ => (reexamine_pending _).trans (endLease_pending _ _ _)

theorem forceRevokeAction_pending : (forceRevokeAction body s).1.pending = s.pending := by
  unfold forceRevokeAction
  dsimp only
  split
  · rfl
  · rfl
  · exact (reexamine_pending _).trans (endLease_pending _ _ _)

theorem evictAction_pending : (evictAction body s).1.pending = s.pending := by
  unfold evictAction
  split
  · split
    · rfl
    split
    · rfl
    · rfl
    · exact (reexamine_pending _).trans (fence_pending _ _ _)
  · rfl

theorem detachAction_pending : (detachAction k s).1.pending = s.pending :=
  calc (detachAction k s).1.pending
    _ = (detachAgent k s).pending := reexamine_pending _
    _ = s.pending := (dropWaitersOf_pending _ k).trans (endLeasesOf_pending _ k .detached)

theorem setAccessAction_pending : (setAccessAction body s).1.pending = s.pending := by
  unfold setAccessAction
  split
  · rfl
  dsimp only
  split
  · rfl
  split
  · rfl
  split
  · rfl
  · unfold replaceAccess
    dsimp only
    split
    · exact reexamine_pending _
    · rfl

theorem configDomainAction_pending : (configDomainAction body s).1.pending = s.pending := by
  unfold configDomainAction
  repeat' split
  all_goals rfl

theorem domainInfoAction_pending : (domainInfoAction body s).1.pending = s.pending := by
  unfold domainInfoAction
  split
  · split <;> rfl
  · rfl

theorem noticeReadAction_pending : (noticeReadAction k s).1.pending = s.pending := by
  unfold noticeReadAction
  dsimp only
  split <;> rfl

theorem noticeAckAction_pending : (noticeAckAction k body s).1.pending = s.pending := by
  unfold noticeAckAction
  split
  · dsimp only
    split
    · rfl
    · split <;> rfl
  · rfl

theorem setNoticeMaskAction_pending : (setNoticeMaskAction k body s).1.pending = s.pending := by
  unfold setNoticeMaskAction
  split
  · split <;> rfl
  · rfl

theorem leaseBatch_pending (f : Filter) (start : Nat) : (leaseBatch k f start s).1.pending = s.pending := by
  unfold leaseBatch
  dsimp only
  split <;> rfl

theorem waiterBatch_pending (f : Filter) (ws : List Waiter) : (waiterBatch k f ws s).1.pending = s.pending := by
  unfold waiterBatch
  dsimp only
  split <;> rfl

theorem nextBatch_pending (c : Cursor) : (nextBatch k c s).1.pending = s.pending := by
  unfold nextBatch
  split
  · exact leaseBatch_pending _ _ _ _
  · exact waiterBatch_pending _ _ _ _
  · exact waiterBatch_pending _ _ _ _

theorem queryAction_pending : (queryAction k body s).1.pending = s.pending := by
  unfold queryAction
  split
  · rfl
  · exact nextBatch_pending _ _ _

theorem queryNextAction_pending : (queryNextAction k s).1.pending = s.pending := by
  unfold queryNextAction
  split
  · rfl
  · exact nextBatch_pending _ _ _

theorem checkTokenAction_pending : (checkTokenAction body s).1.pending = s.pending := by
  unfold checkTokenAction
  split
  · rfl
  unfold checkToken
  split
  · rfl
  dsimp only
  split
  · rfl
  · split <;> rfl

theorem checkAgentAction_pending : (checkAgentAction body s).1.pending = s.pending := by
  unfold checkAgentAction
  split
  · rfl
  unfold checkAgent
  split
  · rfl
  · rfl
  · split <;> rfl

end Actions

/-! #### Link transactions -/

section Links

variable (p : PortNo) (bits : List Bool) (o : Opened) (s : State)

theorem closeCollect_pending : (closeCollect p bits o s).pending = s.pending := by
  unfold closeCollect
  dsimp only
  split <;> rfl

theorem closePortReset_pending : (closePortReset p bits o s).pending = s.pending := by
  change (resetPort p s).pending = s.pending
  unfold resetPort
  dsimp only
  split <;> rfl

theorem transact_pending (kind : Option TransactionKind) {act : List Bool → Opened → State → State} (phase : LinkPhase)
    (acts : ∀ bits o s, (act bits o s).pending = s.pending) : (transact p kind act phase s).pending = s.pending :=
  transact_keeps (·.pending = s.pending) p kind act phase (fun _ _ same => same)
    (fun _ _ _ same => (acts _ _ _).trans same) s rfl

end Links

/-! #### Taking a command -/

/-- An outcome is a next state whose queue is that of s. -/
def CompletesFrom (s : State) (o : Host.Outcome State Fault Refusal) : Prop :=
  ∃ t, o = .next t ∧ t.pending = s.pending

section Taking

variable {kind : ReqKind} {k : AgentNo} {act : List Byte → Action} {s : State}

theorem engineTakes_completes (acts : ∀ body s, (act body s).1.pending = s.pending) :
    CompletesFrom s (engineTakes kind k act s) := by
  rcases engineTakes_cases kind k act s with stays | ⟨r, a, -, refused⟩ | ⟨r, -, -, taken⟩
  · exact ⟨s, stays, rfl⟩
  · exact ⟨_, refused, rfl⟩
  · exact ⟨_, taken, acts _ _⟩

theorem answered_pending (acts : ∀ body s, (act body s).1.pending = s.pending) (p : PortNo) (r : Request) {a : Action}
    (own : a = act r.body ∨ ∃ x, a = refusing x) : (answered p r a s).pending = s.pending := by
  rcases own with rfl | ⟨x, rfl⟩
  · exact acts _ _
  · rfl

theorem noticeUnitTakes_completes (acts : ∀ body s, (act body s).1.pending = s.pending) :
    CompletesFrom s (noticeUnitTakes kind k act s) := by
  rcases noticeUnitTakes_cases kind k act s with stays | ⟨r, a, taken, own⟩
  · exact ⟨s, stays, rfl⟩
  · exact ⟨_, taken, answered_pending acts _ r own⟩

theorem checkPortTakes_completes (acts : ∀ body s, (act body s).1.pending = s.pending) :
    CompletesFrom s (checkPortTakes kind act s) := by
  rcases checkPortTakes_cases kind act s with stays | ⟨r, a, taken, own⟩
  · exact ⟨s, stays, rfl⟩
  · exact ⟨_, taken, answered_pending (s := s.serve checkPort) acts _ r own⟩

theorem whileRunning_completes {act : State → State} (acts : (act s).pending = s.pending) :
    CompletesFrom s (whileRunning act s) := by
  unfold whileRunning
  split
  · exact ⟨s, rfl, rfl⟩
  · exact ⟨_, rfl, acts⟩

theorem whileTicking_completes {act : State → State} (acts : (act s).pending = s.pending) :
    CompletesFrom s (whileTicking act s) := by
  refine whileRunning_completes ?_
  split
  · rfl
  · exact acts

end Taking

section Events

variable (s : State)

theorem execStatus_completes (p : PortNo) : CompletesFrom s (execStatus p s) := by
  unfold execStatus
  split
  · exact engineTakes_completes (act := fun _ => agentStatusAction _) fun _ _ => rfl
  · exact checkPortTakes_completes (act := fun _ => checkStatusAction) fun _ _ => rfl

theorem execResetRelease_completes (straps : BitVec 2) : CompletesFrom s (execResetRelease straps s) := by
  unfold execResetRelease
  split <;> exact ⟨_, rfl, rfl⟩

theorem execTick_completes : CompletesFrom s (execTick s) := by
  refine whileTicking_completes ?_
  split
  · rfl
  · exact tickStages_pending _

theorem execLeaseExpiry_completes (i : LeaseIdx) : CompletesFrom s (execLeaseExpiry i s) := by
  refine whileTicking_completes ?_
  split
  · split
    · exact expireLease_pending _ _ _
    · rfl
  · rfl

theorem execGraceLapse_completes (i : LeaseIdx) : CompletesFrom s (execGraceLapse i s) := by
  refine whileTicking_completes ?_
  split
  · split
    · exact lapseGrace_pending _ _ _
    · rfl
  · rfl

theorem execWaitLapse_completes (i : WaitIdx) : CompletesFrom s (execWaitLapse i s) := by
  refine whileTicking_completes ?_
  split <;> rfl

theorem execUnknownRequest_completes (p : PortNo) : CompletesFrom s (execUnknownRequest p s) := by
  unfold execUnknownRequest
  split
  · split <;> exact ⟨_, rfl, rfl⟩
  · exact ⟨_, rfl, rfl⟩

end Events

theorem exec_completes (c : Instr) (s : State) : CompletesFrom s (exec c s) := by
  cases c with
  | acquire k => exact engineTakes_completes (acquireAction_pending k)
  | cancel k => exact engineTakes_completes (cancelAction_pending k)
  | renew k => exact engineTakes_completes (renewAction_pending k)
  | trim k => exact engineTakes_completes (trimAction_pending k)
  | downgrade k => exact engineTakes_completes (downgradeAction_pending k)
  | upgrade k => exact engineTakes_completes (upgradeAction_pending k)
  | release k => exact engineTakes_completes (releaseAction_pending k)
  | setTick k => exact engineTakes_completes (act := setTickAction) fun _ _ => rfl
  | forceRevoke k => exact engineTakes_completes forceRevokeAction_pending
  | evict k => exact engineTakes_completes evictAction_pending
  | attach k => exact engineTakes_completes (act := fun _ => attachAction k) fun _ _ => rfl
  | detach k => exact engineTakes_completes fun _ => detachAction_pending k
  | resync k => exact engineTakes_completes (act := fun _ => resyncAction k) fun _ _ => rfl
  | setAccess k => exact engineTakes_completes setAccessAction_pending
  | configDomain k => exact engineTakes_completes configDomainAction_pending
  | domainInfo k => exact engineTakes_completes domainInfoAction_pending
  | noticeRead k => exact noticeUnitTakes_completes fun _ => noticeReadAction_pending k
  | noticeAck k => exact noticeUnitTakes_completes (noticeAckAction_pending k)
  | setNoticeMask k => exact noticeUnitTakes_completes (setNoticeMaskAction_pending k)
  | query k => exact engineTakes_completes (queryAction_pending k)
  | queryNext k => exact engineTakes_completes fun _ => queryNextAction_pending k
  | status p => exact execStatus_completes s p
  | checkToken => exact checkPortTakes_completes checkTokenAction_pending
  | checkAgent => exact checkPortTakes_completes checkAgentAction_pending
  | send p phase => exact ⟨_, rfl, transact_pending p s _ phase fun _ _ _ => rfl⟩
  | collect p phase => exact ⟨_, rfl, transact_pending p s _ phase (closeCollect_pending p)⟩
  | portReset p phase => exact ⟨_, rfl, transact_pending p s _ phase (closePortReset_pending p)⟩
  | ignoredTransaction p phase => exact ⟨_, rfl, transact_pending p s _ phase fun _ _ _ => rfl⟩
  | deviceReset => exact ⟨_, rfl, rfl⟩
  | resetRelease straps => exact execResetRelease_completes s straps
  | intervalExpiry => exact whileTicking_completes rfl
  | tick => exact execTick_completes s
  | leaseExpiry i => exact execLeaseExpiry_completes s i
  | graceLapse i => exact execGraceLapse_completes s i
  | waitLapse i => exact execWaitLapse_completes s i
  | noticePost arrival => exact whileRunning_completes (postAll_pending s arrival)
  | unknownRequest p => exact execUnknownRequest_completes s p

/-- Settles O3: every way of taking a command answers a next state, and no action writes the queue. -/
theorem everyCommandCompletesAndKeepsTheQueue : Obligations.EveryCommandCompletesAndKeepsTheQueue :=
  exec_completes

end Sys2Proof.Machine

/-! ### Where a waiter cursor resumes (R154; log entry 14) -/

namespace Sys2Proof.Machine

section Search

variable {α : Type} {p : α → Bool}

/-- Skipping to the first item that passes stops at it. -/
theorem dropWhile_not_of_split {before behind : List α} {a : α} (misses : ∀ b ∈ before, p b = false) (hit : p a = true) :
    (before ++ a :: behind).dropWhile (fun b => !p b) = a :: behind := by
  rw [List.dropWhile_append_of_pos fun b mem => by simp [misses b mem], List.dropWhile_cons_of_neg (by simp [hit])]

/-- Skipping to the first item that passes, where none does, skips every item. -/
theorem dropWhile_not_of_none {xs : List α} (misses : ∀ b ∈ xs, p b = false) : xs.dropWhile (fun b => !p b) = [] :=
  List.dropWhile_eq_nil_iff.2 fun b mem => by simp [misses b mem]

end Search

/-- With the classes in order, the list from the first NORMAL waiter on is the NORMAL waiters (R44). -/
theorem dropWhile_isUrgent_of_classesInOrder {s : State} (inOrder : ClassesInOrder s) :
    s.waiters.dropWhile isUrgent = s.waiters.filter fun w => decide (w.claim.priority = .normal) := by
  simp only [← not_isUrgent]
  exact (takeWhile_dropWhile_of_inOrder (p := isUrgent) (xs := s.waiters)
    (inOrder.imp fun h urgent => by simpa [isUrgent] using h (by simpa [isUrgent] using urgent))).2

/-- A waiter is the one that a cursor keeps: the same wait id, queued at the same arrival (R153). -/
def isKept (kept : KeptWaiter) (w : Waiter) : Bool := decide (w.id = kept.id) && decide (w.arrival = kept.arrival)

/-- A waiter of the kept class, with a later arrival number than the kept one (R154). -/
def isLater (kept : KeptWaiter) (w : Waiter) : Bool :=
  decide (w.claim.priority = kept.priority) && laterArrival kept.arrival w.arrival

section Resume

variable {s : State} {kept : KeptWaiter}

theorem isKept_iff {w : Waiter} : isKept kept w = true ↔ w.id = kept.id ∧ w.arrival = kept.arrival := by simp [isKept]

theorem isLater_iff {w : Waiter} :
    isLater kept w = true ↔ w.claim.priority = kept.priority ∧ (w.arrival - kept.arrival).toNat < 2147483648 := by
  simp [isLater, laterArrival]

theorem resumeAfter_of_kept {before behind : List Waiter} {w : Waiter} (split : s.waiters = before ++ w :: behind)
    (others : ∀ v ∈ before, isKept kept v = false) (here : isKept kept w = true) : resumeAfter s kept = behind := by
  have listed : s.waiters.any (isKept kept) = true := List.any_eq_true.2 ⟨w, by simp [split], here⟩
  have resumed : resumeAfter s kept = (s.waiters.dropWhile fun v => !isKept kept v).drop 1 := if_pos listed
  rw [resumed, split, dropWhile_not_of_split others here, List.drop_one, List.tail_cons]

section Left

variable (left : ∀ w ∈ s.waiters, isKept kept w = false)
include left

theorem no_waiter_isKept : ¬s.waiters.any (isKept kept) = true := by simpa using left

theorem resumeAfter_of_later {before behind : List Waiter} {w : Waiter} (split : s.waiters = before ++ w :: behind)
    (others : ∀ v ∈ before, isLater kept v = false) (later : isLater kept w = true) :
    resumeAfter s kept = w :: behind := by
  have found : s.waiters.dropWhile (fun v => !isLater kept v) = w :: behind := by
    rw [split, dropWhile_not_of_split others later]
  refine (if_neg (no_waiter_isKept left)).trans ?_
  split
  · exact found
  · exact found
  · next skipped => cases skipped.symm.trans found

theorem resumeAfter_of_normal (noLater : ∀ w ∈ s.waiters, isLater kept w = false) (normal : kept.priority = .normal) :
    resumeAfter s kept = [] := by
  refine (if_neg (no_waiter_isKept left)).trans ?_
  split
  · exact dropWhile_not_of_none noLater
  · next urgent _ => cases normal.symm.trans urgent
  · next urgent _ => cases normal.symm.trans urgent

/-- An URGENT cursor with no later waiter in its class goes on with the NORMAL waiters. -/
theorem resumeAfter_of_urgent (noLater : ∀ w ∈ s.waiters, isLater kept w = false) (urgent : kept.priority = .urgent) :
    resumeAfter s kept = s.waiters.dropWhile isUrgent := by
  refine (if_neg (no_waiter_isKept left)).trans ?_
  split
  · next normal => cases urgent.symm.trans normal
  · next found => cases found.symm.trans (dropWhile_not_of_none noLater)
  · rfl

end Left

end Resume

/-- Settles O42: the search for the kept waiter, and the search for a later one, each split the list where they stop. -/
theorem waiterCursorResumePoint : Obligations.WaiterCursorResumePoint := by
  intro s kept
  simp only [← isKept_iff, ← isLater_iff, Bool.not_eq_true]
  exact ⟨fun before w behind split others here => resumeAfter_of_kept split others here, fun left =>
    ⟨fun before w behind split others later => resumeAfter_of_later left split others later, fun noLater =>
      ⟨resumeAfter_of_normal left noLater, fun urgent inOrder =>
        (resumeAfter_of_urgent left noLater urgent).trans (dropWhile_isUrgent_of_classesInOrder inOrder)⟩⟩⟩

end Sys2Proof.Machine

/-! ### The walk over the wait list (R47 to R50) -/

namespace Sys2Proof.Machine

/-! #### Waiters are told apart by their ids (R39) -/

/-- In distinct wait slots no two waiters have the same id. -/
theorem WaitSlotsDistinct.ids {s : State} (distinct : WaitSlotsDistinct s) : (s.waiters.map (·.id)).Nodup := by
  have slots : (s.waiters.map (·.id)).map (·.slot) = s.waiters.map (·.id.slot) := List.map_map
  exact List.Nodup.of_map (·.slot) (slots ▸ distinct)

section Split

variable {front back : List Waiter} {w : Waiter} (nodup : ((front ++ w :: back).map (·.id)).Nodup)
include nodup

theorem ids_ne_of_split : (∀ v ∈ front, v.id ≠ w.id) ∧ ∀ v ∈ back, v.id ≠ w.id := by
  rw [List.map_append, List.map_cons] at nodup
  obtain ⟨-, later, apart⟩ := List.nodup_append.1 nodup
  exact ⟨fun v hv => apart _ (List.mem_map_of_mem hv) _ List.mem_cons_self,
    fun v hv same => (List.nodup_cons.1 later).1 (same ▸ List.mem_map_of_mem hv)⟩

theorem aheadOf_of_split : aheadOf w.id (front ++ w :: back) = front := by
  obtain ⟨before, -⟩ := ids_ne_of_split nodup
  rw [aheadOf, List.takeWhile_append_of_pos (by simpa using before), List.takeWhile_cons_of_neg (by simp), List.append_nil]

theorem filter_ne_of_split : ((front ++ w :: back).filter fun v => decide (v.id ≠ w.id)) = front ++ back := by
  obtain ⟨before, after⟩ := ids_ne_of_split nodup
  rw [List.filter_append, List.filter_cons_of_neg (by simp), List.filter_eq_self.2 (by simpa using before),
    List.filter_eq_self.2 (by simpa using after)]

theorem map_update_of_split (f : Waiter → Waiter) :
    ((front ++ w :: back).map fun v => if v.id = w.id then f v else v) = front ++ f w :: back := by
  obtain ⟨before, after⟩ := ids_ne_of_split nodup
  have same : ∀ vs : List Waiter, (∀ v ∈ vs, v.id ≠ w.id) → (vs.map fun v => if v.id = w.id then f v else v) = vs :=
    fun vs others => (List.map_congr_left fun v hv => if_neg (others v hv)).trans (List.map_id' vs)
  rw [List.map_append, List.map_cons, if_pos rfl, same front before, same back after]

end Split

/-- Whoever comes later does not stand ahead of a waiter in the front. -/
theorem aheadOf_append {id : WaitId} {front : List Waiter} (back : List Waiter) (stands : ∃ v ∈ front, v.id = id) :
    aheadOf id (front ++ back) = aheadOf id front := by
  obtain ⟨v, hv, same⟩ := stands
  rw [aheadOf, List.takeWhile_append, if_neg]
  · rfl
  · intro all
    have passes := List.takeWhile_eq_self_iff.1 (List.takeWhile_prefix _ |>.eq_of_length all) v hv
    simp [same] at passes

/-! #### One waiter of the walk -/

theorem examine_of_grantable {w : Waiter} {s : State} {i : LeaseIdx}
    (verdict : grantVerdict s w.claim (aheadOf w.id s.waiters) = .grantable i) :
    examine w s = (grantWaiter w i s, true) := by
  simp only [examine, verdict]

theorem examine_of_blocked {w : Waiter} {s : State} {b : Blocked}
    (verdict : grantVerdict s w.claim (aheadOf w.id s.waiters) = .blocked b) :
    examine w s = (updateWaiter w.id (fun v => { v with blocked := b }) s, false) := by
  simp only [examine, verdict]

theorem walk_of_grantable {w : Waiter} {s : State} {i : LeaseIdx} (ws : List Waiter)
    (verdict : grantVerdict s w.claim (aheadOf w.id s.waiters) = .grantable i) :
    walk (w :: ws) s = ((walk ws (grantWaiter w i s)).1, 1 + (walk ws (grantWaiter w i s)).2) := by
  simp only [walk, examine_of_grantable verdict, Bool.toNat_true]

theorem walk_of_blocked {w : Waiter} {s : State} {b : Blocked} (ws : List Waiter)
    (verdict : grantVerdict s w.claim (aheadOf w.id s.waiters) = .blocked b) :
    walk (w :: ws) s = walk ws (updateWaiter w.id (fun v => { v with blocked := b }) s) := by
  simp only [walk, examine_of_blocked verdict, Bool.toNat_false, Nat.zero_add]

/-- A grant gives the waiter its lease, and lets it go (R48). -/
theorem grantWaiter_spec (w : Waiter) (i : LeaseIdx) (s : State) :
    grantWaiter w i s = { placeLease w.claim i s with
      agents := s.agents.set w.claim.agent { s.agent w.claim.agent with
        leaseCount := (s.agent w.claim.agent).leaseCount + 1, waitCount := (s.agent w.claim.agent).waitCount - 1 }
      waiters := s.waiters.filter fun v => decide (v.id ≠ w.id)
      waitSlots := s.waitSlots.set w.id.slot { s.waitSlot w.id.slot with
        memory := some { gen := w.id.gen, cause := .granted (s.nextLeaseId i), agent := w.claim.agent } }
      notices := s.notices.set w.claim.agent (storeNotice
        (.granted w.id (s.nextLeaseId i) s.tokenCounter w.claim.mode w.claim.range w.claim.tag)
        (s.notice w.claim.agent)) } := by
  have placed : (placeLease w.claim i s).agents = s.agents.set w.claim.agent
      { s.agent w.claim.agent with leaseCount := (s.agent w.claim.agent).leaseCount + 1 } := rfl
  have record : (placeLease w.claim i s).agent w.claim.agent =
      { s.agent w.claim.agent with leaseCount := (s.agent w.claim.agent).leaseCount + 1 } := by
    simp only [State.agent, placed, Fin.getElem_fin, Vector.getElem_set_self]
  rw [grantWaiter, depart_spec, record, placed, Vector.set_set]
  rfl

/-- Settles O50: the verdict decides, and a grant is the record placed, the departure and the notice. -/
theorem walkExaminesEachWaiter : Obligations.WalkExaminesEachWaiter := by
  refine ⟨fun _ => rfl, fun _ => rfl, fun s w ws => ⟨fun i verdict => ?_, fun why verdict => ?_⟩⟩
  · rw [walk_of_grantable ws verdict, grantWaiter_spec]
    rfl
  · exact walk_of_blocked ws verdict

/-! #### What bars a grant (R28, R50) -/

/-- A claim meets all four grant conditions, with these waiters ahead of it. -/
def Grantable (s : State) (c : Claim) (ahead : List Waiter) : Prop := ∃ i, grantVerdict s c ahead = .grantable i

theorem eighthLaw_iff {s : State} : EighthLaw s ↔ ∀ w ∈ s.waiters, ¬Grantable s w.claim (aheadOf w.id s.waiters) := by
  simp only [EighthLaw, Grantable, not_exists, ne_eq]

theorem exists_lowestFreeSlot {s : State} : (∃ i, LowestFreeSlot s i) ↔ ∃ i m, s.lease i = .free m := by
  constructor
  · rintro ⟨i, free, -⟩
    exact ⟨i, free⟩
  · rintro ⟨i, m, free⟩
    cases found : freeLeaseSlot s with
    | some j => exact ⟨j, (freeLeaseSlot_eq_some s j).1 found⟩
    | none =>
      obtain ⟨l, held⟩ := (freeLeaseSlot_eq_none s).1 found i
      cases free.symm.trans held

theorem grantable_iff {s : State} {c : Claim} {ahead : List Waiter} :
    Grantable s c ahead ↔
      (∀ j l, s.lease j = .held l → conflicts l.range l.mode c.range c.mode = false)
        ∧ (∀ w ∈ ahead, conflicts w.claim.range w.claim.mode c.range c.mode = false)
        ∧ (s.agent c.agent).leaseCount < (s.accessOf c.agent).leaseLimit ∧ ∃ i m, s.lease i = .free m := by
  simp only [Grantable, grantVerdict_eq_grantable, ← exists_lowestFreeSlot, exists_and_left]

/-- From s to t no lease ends, narrows or weakens, and no agent comes under its lease limit: no claim that could not be
granted in s can be granted in t. -/
structure Tightens (s t : State) : Prop where
  leases : ∀ i l, s.lease i = .held l →
    ∃ l', t.lease i = .held l' ∧ l'.range = l.range ∧ (l.mode = .exclusive → l'.mode = .exclusive)
  room : ∀ k, (t.agent k).leaseCount < (t.accessOf k).leaseLimit → (s.agent k).leaseCount < (s.accessOf k).leaseLimit

theorem conflicts_of_stronger {a r : Range} {m m' n : Mode} (stronger : m = .exclusive → m' = .exclusive)
    (h : conflicts a m r n = true) : conflicts a m' r n = true := by
  cases m <;> cases m' <;> simp_all [conflicts]

theorem Tightens.grantable {s t : State} {c : Claim} {ahead ahead' : List Waiter} (tightens : Tightens s t)
    (more : ∀ w ∈ ahead, ∃ v ∈ ahead', v.claim = w.claim) (h : Grantable t c ahead') : Grantable s c ahead := by
  obtain ⟨clear, first, room, j, m, free⟩ := grantable_iff.1 h
  refine grantable_iff.2 ⟨fun i l held => ?_, fun w hw => ?_, tightens.room _ room, j, ?_⟩
  · obtain ⟨l', held', range, stronger⟩ := tightens.leases i l held
    refine Bool.eq_false_iff.2 fun conflict => Bool.eq_false_iff.1 (clear i l' held') ?_
    exact range ▸ conflicts_of_stronger stronger conflict
  · obtain ⟨v, hv, same⟩ := more w hw
    exact same ▸ first v hv
  · cases content : s.lease j with
    | free m' => exact ⟨m', rfl⟩
    | held l =>
      obtain ⟨l', held', -⟩ := tightens.leases j l content
      cases free.symm.trans held'

/-- What touches neither the lease table, nor a lease count, nor a lease limit. -/
theorem Tightens.of_same {s t : State} (leases : t.leases = s.leases)
    (counts : ∀ k, (t.agent k).leaseCount = (s.agent k).leaseCount)
    (limits : ∀ k, (t.accessOf k).leaseLimit ≤ (s.accessOf k).leaseLimit) : Tightens s t where
  leases i l held := ⟨l, by simpa only [State.lease, leases] using held, rfl, id⟩
  room k under := by
    have := counts k
    have := limits k
    omega

theorem placeLease_agent (c : Claim) (i : LeaseIdx) (s : State) (k : AgentNo) :
    (placeLease c i s).agent k =
      if k = c.agent then { s.agent k with leaseCount := (s.agent k).leaseCount + 1 } else s.agent k := by
  have written : (placeLease c i s).agents =
      (s.setAgent c.agent { s.agent c.agent with leaseCount := (s.agent c.agent).leaseCount + 1 }).agents := rfl
  rw [State.agent, written]
  refine (State.setAgent_agent s c.agent _ k).trans ?_
  split
  · next own => rw [own]
  · rfl

/-- A grant takes a FREE slot and raises a count. -/
theorem placeLease_tightens {s : State} {c : Claim} {i : LeaseIdx} (free : ∃ m, s.lease i = .free m) :
    Tightens s (placeLease c i s) where
  leases j l held := by
    obtain ⟨m, free⟩ := free
    have other : j ≠ i := by
      rintro rfl
      cases free.symm.trans held
    exact ⟨l, (placeLease_lease_ne c i j s other).trans held, rfl, id⟩
  room k under := by
    rw [placeLease_agent] at under
    split at under
    · exact Nat.lt_of_succ_lt under
    · exact under

theorem Tightens.trans {s t u : State} (first : Tightens s t) (second : Tightens t u) : Tightens s u where
  leases i l held := by
    obtain ⟨l', held', range', stronger'⟩ := first.leases i l held
    obtain ⟨l'', held'', range'', stronger''⟩ := second.leases i l' held'
    exact ⟨l'', held'', range''.trans range', fun exclusive => stronger'' (stronger' exclusive)⟩
  room k under := first.room k (second.room k under)

theorem grantWaiter_agent (w : Waiter) (i : LeaseIdx) (s : State) (k : AgentNo) :
    (grantWaiter w i s).agent k = if k = w.claim.agent then
      { s.agent k with leaseCount := (s.agent k).leaseCount + 1, waitCount := (s.agent k).waitCount - 1 }
      else s.agent k := by
  have written : (grantWaiter w i s).agents = (s.setAgent w.claim.agent { s.agent w.claim.agent with
      leaseCount := (s.agent w.claim.agent).leaseCount + 1
      waitCount := (s.agent w.claim.agent).waitCount - 1 }).agents := by rw [grantWaiter_spec]; rfl
  rw [State.agent, written]
  refine (State.setAgent_agent s w.claim.agent _ k).trans ?_
  split
  · next own => rw [own]
  · rfl

theorem grantWaiter_lease (w : Waiter) (i : LeaseIdx) (s : State) (j : LeaseIdx) :
    (grantWaiter w i s).lease j = (placeLease w.claim i s).lease j := rfl

theorem grantWaiter_waiters (w : Waiter) (i : LeaseIdx) (s : State) :
    (grantWaiter w i s).waiters = s.waiters.filter fun v => decide (v.id ≠ w.id) := rfl

theorem free_of_grantVerdict {s : State} {c : Claim} {ahead : List Waiter} {i : LeaseIdx}
    (verdict : grantVerdict s c ahead = .grantable i) : ∃ m, s.lease i = .free m := by
  obtain ⟨-, -, -, free, -⟩ := grantVerdict_eq_grantable.1 verdict
  exact free

theorem grantWaiter_tightens {s : State} {w : Waiter} {i : LeaseIdx} (free : ∃ m, s.lease i = .free m) :
    Tightens s (grantWaiter w i s) where
  leases := (placeLease_tightens (c := w.claim) free).leases
  room k under := by
    rw [grantWaiter_agent] at under
    split at under
    · exact Nat.lt_of_succ_lt under
    · exact under

/-! #### One walk is enough (R50) -/

/-- The walk so far: the waiters of the front have been examined, stay, and cannot be granted; the back is to come. -/
structure Examined (s : State) (front back : List Waiter) : Prop where
  split : s.waiters = front ++ back
  nodup : (s.waiters.map (·.id)).Nodup
  barred : ∀ v ∈ front, ¬Grantable s v.claim (aheadOf v.id front)

theorem Examined.start {s : State} (distinct : WaitSlotsDistinct s) : Examined s [] s.waiters :=
  ⟨rfl, distinct.ids, nofun⟩

/-- Once nothing is to come, the front is the whole list. -/
theorem Examined.eighthLaw {s : State} {front : List Waiter} (examined : Examined s front []) : EighthLaw s := by
  rw [eighthLaw_iff, examined.split, List.append_nil]
  exact examined.barred

theorem examine_examined {s : State} {front back : List Waiter} {w : Waiter} (examined : Examined s front (w :: back)) :
    ∃ front', Examined (examine w s).1 front' back := by
  obtain ⟨split, nodup, barred⟩ := examined
  have nodup' := split ▸ nodup
  have ahead : aheadOf w.id s.waiters = front := split ▸ aheadOf_of_split nodup'
  cases verdict : grantVerdict s w.claim (aheadOf w.id s.waiters) with
  | grantable i =>
    have tightens : Tightens s (grantWaiter w i s) := grantWaiter_tightens (free_of_grantVerdict verdict)
    rw [examine_of_grantable verdict]
    refine ⟨front, ?_, ?_, fun v hv grantable => barred v hv (tightens.grantable (fun u hu => ⟨u, hu, rfl⟩) grantable)⟩
    · rw [grantWaiter_waiters, split, filter_ne_of_split nodup']
    · exact nodup.sublist (List.filter_sublist.map _)
  | blocked b =>
    rw [examine_of_blocked verdict]
    have waiters : (updateWaiter w.id (fun v => { v with blocked := b }) s).waiters =
        front ++ { w with blocked := b } :: back := by
      rw [updateWaiter, split]
      exact map_update_of_split nodup' _
    have ids : (front ++ { w with blocked := b } :: back).map (·.id) = (front ++ w :: back).map (·.id) := by simp
    refine ⟨front ++ [{ w with blocked := b }], ?_, ?_, fun v hv grantable => ?_⟩
    · rw [waiters, List.append_assoc]
      rfl
    · rw [waiters, ids]
      exact nodup'
    · rcases List.mem_append.1 hv with old | new
      · rw [aheadOf_append _ ⟨v, old, rfl⟩] at grantable
        exact barred v old grantable
      · obtain rfl := List.mem_singleton.1 new
        have shorter : (front ++ [{ w with blocked := b }]).Sublist (front ++ { w with blocked := b } :: back) :=
          (List.append_sublist_append_left front).2 (List.singleton_sublist.2 List.mem_cons_self)
        have here : aheadOf w.id (front ++ [{ w with blocked := b }]) = front :=
          aheadOf_of_split (back := []) (w := { w with blocked := b }) (nodup'.sublist (ids ▸ shorter.map (·.id)))
        obtain ⟨i, found⟩ := grantable
        rw [here, ← ahead] at found
        cases verdict.symm.trans found

theorem walk_eighthLaw : ∀ {back front : List Waiter} {s : State}, Examined s front back → EighthLaw (walk back s).1
  | [], _, _, examined => examined.eighthLaw
  | w :: back, _, s, examined => by
    obtain ⟨_, rest⟩ := examine_examined examined
    exact walk_eighthLaw (back := back) (s := (examine w s).1) rest

/-- Settles O52: a waiter that stays is barred when it is examined, and nothing later in the walk lifts the bar. -/
theorem oneWalkRestoresTheEighthLaw : Obligations.OneWalkRestoresTheEighthLaw :=
  fun _ distinct => walk_eighthLaw (.start distinct)

/-! #### What a walk leaves (R47 to R49) -/

/-- A property that a grant and a rewriting keep, each of a waiter that stands in the list, the walk keeps: until it is
examined a waiter stands in the list unchanged. -/
theorem walk_keeps_of_waiting (P : State → Prop)
    (grant : ∀ s w i, w ∈ s.waiters → P s → grantVerdict s w.claim (aheadOf w.id s.waiters) = .grantable i →
      P (grantWaiter w i s))
    (stay : ∀ s id b, P s → P (updateWaiter id (fun v => { v with blocked := b }) s)) :
    ∀ (ws : List Waiter) (s : State), (ws.map (·.id)).Nodup → (∀ v ∈ ws, v ∈ s.waiters) → P s → P (walk ws s).1
  | [], _, _, _, hs => hs
  | w :: ws, s, nodup, stands, hs => by
    obtain ⟨fresh, nodup⟩ := List.nodup_cons.1 nodup
    have other : ∀ v ∈ ws, v.id ≠ w.id := fun v hv same => fresh (List.mem_map.2 ⟨v, hv, same⟩)
    obtain ⟨here, stands⟩ := List.forall_mem_cons.1 stands
    cases verdict : grantVerdict s w.claim (aheadOf w.id s.waiters) with
    | grantable i =>
      rw [walk_of_grantable ws verdict]
      refine walk_keeps_of_waiting P grant stay ws _ nodup (fun v hv => ?_) (grant s w i here hs verdict)
      exact List.mem_filter.2 ⟨stands v hv, decide_eq_true (other v hv)⟩
    | blocked b =>
      rw [walk_of_blocked ws verdict]
      refine walk_keeps_of_waiting P grant stay ws _ nodup (fun v hv => ?_) (stay s w.id b hs)
      exact List.mem_map.2 ⟨v, stands v hv, if_neg (other v hv)⟩

theorem reexamine_keeps_of_waiting (P : State → Prop)
    (grant : ∀ s w i, w ∈ s.waiters → P s → grantVerdict s w.claim (aheadOf w.id s.waiters) = .grantable i →
      P (grantWaiter w i s))
    (stay : ∀ s id b, P s → P (updateWaiter id (fun v => { v with blocked := b }) s)) {s : State}
    (distinct : WaitSlotsDistinct s) (hs : P s) : P (reexamine s).1 :=
  walk_keeps_of_waiting P grant stay s.waiters s distinct.ids (fun _ hv => hv) hs

/-- Of the waiters, the walk counts those that it grants. -/
theorem walk_count : ∀ (back : List Waiter) {front : List Waiter} {s : State}, Examined s front back →
    (walk back s).2 + (walk back s).1.waiters.length = s.waiters.length
  | [], _, _, _ => Nat.zero_add _
  | w :: back, front, s, examined => by
    obtain ⟨front', rest⟩ := examine_examined examined
    have counted := walk_count back rest
    have nodup := examined.split ▸ examined.nodup
    cases verdict : grantVerdict s w.claim (aheadOf w.id s.waiters) with
    | grantable i =>
      rw [examine_of_grantable verdict, grantWaiter_waiters, examined.split, filter_ne_of_split nodup] at counted
      rw [walk_of_grantable back verdict, examined.split, List.length_append, List.length_cons]
      rw [List.length_append] at counted
      dsimp only at counted ⊢
      omega
    | blocked b =>
      rw [examine_of_blocked verdict] at counted
      rw [walk_of_blocked back verdict]
      exact counted.trans (List.length_map _)

theorem DiffersByWalk.refl (s : State) : DiffersByWalk s s := ⟨rfl, fun _ _ held => held, fun _ => ⟨rfl, rfl⟩⟩

theorem DiffersByWalk.trans {s t u : State} (first : DiffersByWalk s t) (second : DiffersByWalk t u) :
    DiffersByWalk s u := by
  obtain ⟨frame, leases, agents⟩ := first
  obtain ⟨frame', leases', agents'⟩ := second
  refine ⟨?_, fun i l held => leases' i l (leases i l held), fun k => ⟨?_, (agents' k).2.trans (agents k).2⟩⟩
  · exact frame'.trans (by rw [frame])
  · exact (agents' k).1.trans (by rw [(agents k).1])

theorem grantWaiter_differsByWalk {s : State} {w : Waiter} {i : LeaseIdx} (free : ∃ m, s.lease i = .free m) :
    DiffersByWalk s (grantWaiter w i s) := by
  refine ⟨by rw [grantWaiter_spec]; rfl, fun j l held => ?_, fun k => ⟨?_, ?_⟩⟩
  · obtain ⟨m, free⟩ := free
    have other : j ≠ i := by
      rintro rfl
      cases free.symm.trans held
    exact (placeLease_lease_ne w.claim i j s other).trans held
  · rw [grantWaiter_agent]
    split <;> rfl
  · rw [grantWaiter, postNotice_notice]
    split
    · next own => rw [storeNotice_mask]; rfl
    · rfl

theorem reexamine_differsByWalk (s : State) : DiffersByWalk s (reexamine s).1 :=
  reexamine_keeps (DiffersByWalk s)
    (fun _ _ _ differs verdict => differs.trans (grantWaiter_differsByWalk (free_of_grantVerdict verdict)))
    (fun _ _ _ differs => differs.trans ⟨rfl, fun _ _ held => held, fun _ => ⟨rfl, rfl⟩⟩) s (.refl s)

/-- Settles O51: each grant takes a FREE slot and one waiter out of the list, and a rewriting takes none. -/
theorem reexaminationFrame : Obligations.ReexaminationFrame :=
  fun s distinct => ⟨reexamine_differsByWalk s, walk_count s.waiters (.start distinct)⟩

end Sys2Proof.Machine

/-! ### TICK (R51, R82, R86) -/

namespace Sys2Proof.Machine

theorem execTick_of_stopped {s : State} (h : s.rstAsserted = true ∨ s.tickPeriod = 0) : execTick s = .next s :=
  whileTicking_stopped _ h

theorem execTick_of_none {s : State} (none : s.pendingTicks = 0) : execTick s = .next s :=
  whileTicking_unchanged (if_pos none)

theorem execTick_of_pending {s : State} (running : s.rstAsserted = false) (ticking : s.tickPeriod ≠ 0)
    (pending : s.pendingTicks ≠ 0) :
    execTick s = .next (tickStages { s with pendingTicks := s.pendingTicks - 1 }) := by
  rw [execTick, whileTicking_running _ running ticking, if_neg pending]

/-- Settles O46: the tick is an event of the running timer, and takes a pending tick where there is one. -/
theorem tickRunsThreeStages : Obligations.TickRunsThreeStages := by
  refine fun s => ⟨?_, execTick_of_pending⟩
  rintro (asserted | stopped | none)
  · exact execTick_of_stopped (.inl asserted)
  · exact execTick_of_stopped (.inr stopped)
  · exact execTick_of_none none

end Sys2Proof.Machine

/-! ### Ends and drops of all that an agent has (R14, R46, R53, R101, R120) -/

namespace Sys2Proof.Machine

/-! #### The leases of an agent -/

/-- Lease slot i holds a live lease of agent k. -/
def heldBy (s : State) (k : AgentNo) (i : LeaseIdx) : Bool :=
  match s.lease i with
  | .held l => decide (l.holder = k)
  | .free _ => false

theorem heldBy_iff {s : State} {k : AgentNo} {i : LeaseIdx} :
    heldBy s k i = true ↔ ∃ l, s.lease i = .held l ∧ l.holder = k := by
  unfold heldBy
  cases s.lease i <;> simp

theorem holdings_eq_filter (s : State) (k : AgentNo) : holdings s k = (List.finRange 64).filter (heldBy s k) := by
  rw [holdings, liveLeases, List.filter_filterMap, List.map_filterMap, ← List.filterMap_eq_filter]
  refine List.filterMap_congr fun i _ => ?_
  cases content : s.lease i with
  | free m => simp [Option.guard, heldBy, content]
  | held l => by_cases own : l.holder = k <;> simp [Option.filter, Option.guard, heldBy, content, own]

theorem holdings_nodup (s : State) (k : AgentNo) : (holdings s k).Nodup :=
  holdings_eq_filter s k ▸ (List.nodup_finRange 64).filter _

theorem AgentRecord.without_without (a : AgentRecord) (m n : Nat) : (a.without m).without n = a.without (m + n) := by
  simp only [AgentRecord.without, Nat.sub_sub]

/-- State t is s after the leases in the slots listed, all of agent k, have ended with a cause (R14). -/
structure Ended (k : AgentNo) (cause : EndCause) (s t : State) (slots : List LeaseIdx) : Prop where
  visited : ∀ i ∈ slots, ∀ l, s.lease i = .held l →
    t.leases[i] = { s.leases[i] with content := .free (some (endedMemory cause l)) }
  others : ∀ i, i ∉ slots → t.leases[i] = s.leases[i]
  self : t.agent k = (s.agent k).without slots.length
  agents : ∀ j, j ≠ k → t.agent j = s.agent j
  frame : t = { s with leases := t.leases, agents := t.agents }

theorem Ended.refl (k : AgentNo) (cause : EndCause) (s : State) : Ended k cause s s [] :=
  ⟨nofun, fun _ _ => rfl, rfl, fun _ _ => rfl, rfl⟩

theorem Ended.lease_of_other {k : AgentNo} {cause : EndCause} {s t : State} {slots : List LeaseIdx}
    (ended : Ended k cause s t slots) {i : LeaseIdx} (h : i ∉ slots) : t.lease i = s.lease i :=
  congrArg LeaseSlot.content (ended.others i h)

theorem endLease_ended {s : State} {i : LeaseIdx} {l : Lease} (cause : EndCause) (held : s.lease i = .held l) :
    Ended l.holder cause s (endLease cause i s) [i] := by
  rw [endLease_held cause held]
  refine ⟨fun j visited m held' => ?_, fun j other => ?_, State.setAgent_agent_self _ _ _,
    fun j other => State.setAgent_agent_ne _ _ _ _ other, rfl⟩
  · obtain rfl := List.mem_singleton.1 visited
    obtain rfl := SlotContent.held.inj (held.symm.trans held')
    exact State.setLease_leases_self s j _
  · exact State.setLease_leases_ne s _ (mt List.mem_singleton.2 other)

theorem Ended.cons {k : AgentNo} {cause : EndCause} {s t u : State} {i : LeaseIdx} {slots : List LeaseIdx}
    (first : Ended k cause s t [i]) (rest : Ended k cause t u slots) (fresh : i ∉ slots) :
    Ended k cause s u (i :: slots) := by
  have other : ∀ j ∈ slots, j ∉ [i] := fun j member h => fresh (List.mem_singleton.1 h ▸ member)
  refine ⟨fun j visited l held => ?_, fun j unvisited => ?_, ?_, fun j ne => ?_, ?_⟩
  · rcases List.mem_cons.1 visited with rfl | later
    · rw [rest.others j fresh]
      exact first.visited j List.mem_cons_self l held
    · rw [rest.visited j later l ((first.lease_of_other (other j later)).trans held), first.others j (other j later)]
  · obtain ⟨ne, later⟩ := not_or.1 (mt List.mem_cons.2 unvisited)
    rw [rest.others j later, first.others j (mt List.mem_singleton.1 ne)]
  · rw [rest.self, first.self, AgentRecord.without_without, ← List.length_append, List.singleton_append]
  · rw [rest.agents j ne, first.agents j ne]
  · exact rest.frame.trans (by rw [first.frame])

/-- One end after the other leaves the slots to come as they were. -/
theorem endLeases_ended {k : AgentNo} {cause : EndCause} : ∀ {slots : List LeaseIdx} {s : State}, slots.Nodup →
    (∀ i ∈ slots, heldBy s k i = true) → Ended k cause s (slots.foldl (fun t i => endLease cause i t) s) slots
  | [], s, _, _ => .refl k cause s
  | i :: slots, s, distinct, held => by
    obtain ⟨fresh, distinct⟩ := List.nodup_cons.1 distinct
    obtain ⟨here, held⟩ := List.forall_mem_cons.1 held
    obtain ⟨l, hl, rfl⟩ := heldBy_iff.1 here
    have first := endLease_ended cause hl
    refine first.cons (endLeases_ended distinct fun j later => ?_) fresh
    have same : (endLease cause i s).lease j = s.lease j :=
      first.lease_of_other fun h => fresh (List.mem_singleton.1 h ▸ later)
    unfold heldBy
    rw [same]
    exact held j later

theorem endLeasesOf_ended (k : AgentNo) (cause : EndCause) (s : State) :
    Ended k cause s (endLeasesOf k cause s) (holdings s k) :=
  endLeases_ended (holdings_nodup s k) fun i hi => heldBy_iff.2 ((mem_holdings s k i).1 hi)

/-! #### Departures from the list -/

/-- What the departure of a waiter writes into its slot (R46). -/
def leftSlot (cause : WaitEnd) (w : Waiter) (slot : WaitSlot) : WaitSlot :=
  { slot with memory := some { gen := w.id.gen, cause, agent := w.claim.agent } }

/-- The record of an agent with n waiters fewer to its count. -/
def AgentRecord.withoutWaiters (a : AgentRecord) (n : Nat) : AgentRecord := { a with waitCount := a.waitCount - n }

/-- Nothing but the lease table, the wait list with its slots, and the agent records differs. -/
def DiffersByEnds (s t : State) : Prop :=
  ∃ leases waiters waitSlots agents,
    t = { s with leases := leases, waiters := waiters, waitSlots := waitSlots, agents := agents }

theorem DiffersByEnds.refl (s : State) : DiffersByEnds s s := ⟨_, _, _, _, rfl⟩

theorem DiffersByEnds.trans {s t u : State} (first : DiffersByEnds s t) (second : DiffersByEnds t u) :
    DiffersByEnds s u := by
  obtain ⟨_, _, _, _, rfl⟩ := first
  obtain ⟨_, _, _, _, rfl⟩ := second
  exact ⟨_, _, _, _, rfl⟩

theorem Ended.differsByEnds {k : AgentNo} {cause : EndCause} {s t : State} {slots : List LeaseIdx}
    (ended : Ended k cause s t slots) : DiffersByEnds s t :=
  ⟨t.leases, s.waiters, s.waitSlots, t.agents, ended.frame⟩

/-- From s to t the waiters given have left with a cause, as far as slots and counts show it. -/
structure Left (cause : WaitEnd) (s t : State) (gone : List Waiter) : Prop where
  slots : ∀ w ∈ gone, t.waitSlot w.id.slot = leftSlot cause w (s.waitSlot w.id.slot)
  others : ∀ i, (∀ w ∈ gone, w.id.slot ≠ i) → t.waitSlot i = s.waitSlot i
  agents : ∀ k, t.agent k = (s.agent k).withoutWaiters (gone.filter fun w => decide (w.claim.agent = k)).length

theorem Left.of_same {cause : WaitEnd} {s t : State} (waitSlots : t.waitSlots = s.waitSlots) (agents : t.agents = s.agents) :
    Left cause s t [] where
  slots := nofun
  others i _ := by rw [State.waitSlot, waitSlots]; rfl
  agents k := by rw [State.agent, agents]; rfl

theorem depart_left (cause : WaitEnd) (w : Waiter) (s : State) : Left cause s (depart cause w s) [w] where
  slots v hv := by
    obtain rfl := List.mem_singleton.1 hv
    exact State.setWaitSlot_waitSlot_self s _ _
  others i other := State.setWaitSlot_waitSlot_ne s _ _ _ (other w List.mem_cons_self).symm
  agents k := by
    refine (State.setAgent_agent s w.claim.agent _ k).trans ?_
    by_cases own : k = w.claim.agent
    · subst own; simp [AgentRecord.withoutWaiters]
    · simp [own, Ne.symm own, AgentRecord.withoutWaiters]

theorem Left.append {cause : WaitEnd} {s t u : State} {gone gone' : List Waiter} (first : Left cause s t gone)
    (rest : Left cause t u gone') (apart : ∀ v ∈ gone, ∀ w ∈ gone', v.id.slot ≠ w.id.slot) :
    Left cause s u (gone ++ gone') where
  slots w hw := by
    rcases List.mem_append.1 hw with early | late
    · rw [rest.others _ fun v hv => (apart w early v hv).symm, first.slots w early]
    · rw [rest.slots w late, first.others _ fun v hv => apart v hv w late]
  others i other := by
    obtain ⟨early, late⟩ := List.forall_mem_append.1 other
    rw [rest.others i late, first.others i early]
  agents k := by
    rw [rest.agents, first.agents, List.filter_append, List.length_append]
    simp only [AgentRecord.withoutWaiters, Nat.sub_sub]

/-- Waiters of a list in distinct slots, as those of the whole list. -/
theorem slots_apart {w : Waiter} {ws : List Waiter} (nodup : ((w :: ws).map (·.id.slot)).Nodup) :
    (∀ v ∈ ws, v.id.slot ≠ w.id.slot) ∧ (ws.map (·.id.slot)).Nodup := by
  obtain ⟨fresh, rest⟩ := List.nodup_cons.1 nodup
  exact ⟨fun v hv same => fresh (List.mem_map.2 ⟨v, hv, same⟩), rest⟩

theorem departs_left {cause : WaitEnd} : ∀ {gone : List Waiter} (s : State), (gone.map (·.id.slot)).Nodup →
    Left cause s (gone.foldl (fun t w => depart cause w t) s) gone
  | [], s, _ => .of_same rfl rfl
  | w :: gone, s, nodup => by
    obtain ⟨fresh, nodup⟩ := slots_apart nodup
    refine (depart_left cause w s).append (departs_left _ nodup) fun v hv u hu => ?_
    obtain rfl := List.mem_singleton.1 hv
    exact (fresh u hu).symm

theorem departs_waiters {cause : WaitEnd} : ∀ (gone : List Waiter) (s : State),
    (gone.foldl (fun t w => depart cause w t) s).waiters =
      s.waiters.filter fun v => gone.all fun w => decide (v.id ≠ w.id)
  | [], s => by simp
  | w :: gone, s => by
    rw [List.foldl_cons, departs_waiters gone, depart_spec, List.filter_filter]
    refine List.filter_congr fun v _ => ?_
    rw [List.all_cons, Bool.and_comm]

theorem departs_differsByEnds {cause : WaitEnd} (gone : List Waiter) (s : State) :
    DiffersByEnds s (gone.foldl (fun t w => depart cause w t) s) :=
  foldl_keeps (DiffersByEnds s) _ (fun _ _ differs => differs.trans ⟨_, _, _, _, rfl⟩) gone s (.refl s)

theorem dropWaitersOf_left {s : State} (k : AgentNo) (distinct : WaitSlotsDistinct s) :
    Left .dropped s (dropWaitersOf k s) (waitersOf s k) :=
  departs_left s (distinct.sublist (List.filter_sublist.map _))

theorem dropWaitersOf_waiters {s : State} (k : AgentNo) (distinct : WaitSlotsDistinct s) :
    (dropWaitersOf k s).waiters = s.waiters.filter fun w => decide (w.claim.agent ≠ k) := by
  rw [dropWaitersOf, departs_waiters]
  refine List.filter_congr fun v hv => ?_
  rw [Bool.eq_iff_iff, List.all_eq_true]
  simp only [decide_eq_true_eq, waitersOf, List.mem_filter]
  constructor
  · rintro others own
    exact others v ⟨hv, own⟩ rfl
  · rintro other w ⟨hw, own⟩ same
    obtain rfl := waiter_eq_of_slot distinct hv hw (congrArg WaitId.slot same)
    exact other own

/-! #### Both together -/

/-- Every live lease of agent k ends, and then every waiter of k is dropped. -/
def endAllOf (k : AgentNo) (cause : EndCause) (s : State) : State := dropWaitersOf k (endLeasesOf k cause s)

section EndAll

variable (k : AgentNo) (cause : EndCause) (s : State)

theorem endLeasesOf_waiters : (endLeasesOf k cause s).waiters = s.waiters := by
  rw [(endLeasesOf_ended k cause s).frame]

theorem waitersOf_endLeasesOf : waitersOf (endLeasesOf k cause s) k = waitersOf s k := by
  rw [waitersOf, endLeasesOf_waiters]
  rfl

theorem endAllOf_differsByEnds : DiffersByEnds s (endAllOf k cause s) :=
  (endLeasesOf_ended k cause s).differsByEnds.trans (departs_differsByEnds _ _)

theorem endAllOf_leases : (endAllOf k cause s).leases = (endLeasesOf k cause s).leases :=
  dropWaitersOf_keeps (fun t => t.leases = (endLeasesOf k cause s).leases) (fun _ _ same => same) k _ rfl

variable {s} (distinct : WaitSlotsDistinct s)
include distinct

theorem endAllOf_left : Left .dropped (endLeasesOf k cause s) (endAllOf k cause s) (waitersOf s k) := by
  have distinct' : WaitSlotsDistinct (endLeasesOf k cause s) := by
    rw [WaitSlotsDistinct, endLeasesOf_waiters]
    exact distinct
  exact waitersOf_endLeasesOf k cause s ▸ dropWaitersOf_left k distinct'

theorem endAllOf_waiters : (endAllOf k cause s).waiters = s.waiters.filter fun w => decide (w.claim.agent ≠ k) := by
  have waiters := endLeasesOf_waiters k cause s
  rw [endAllOf, dropWaitersOf_waiters k (by rw [WaitSlotsDistinct, waiters]; exact distinct), waiters]

theorem endAllOf_agent_self :
    (endAllOf k cause s).agent k = { s.agent k with
      leaseCount := (s.agent k).leaseCount - (holdings s k).length
      waitCount := (s.agent k).waitCount - (waitersOf s k).length } := by
  have all : ((waitersOf s k).filter fun w => decide (w.claim.agent = k)) = waitersOf s k :=
    List.filter_eq_self.2 fun w hw => (List.mem_filter.1 hw).2
  rw [(endAllOf_left k cause distinct).agents, (endLeasesOf_ended k cause s).self, all]
  rfl

theorem endAllOf_agent_ne {j : AgentNo} (other : j ≠ k) : (endAllOf k cause s).agent j = s.agent j := by
  have none : ((waitersOf s k).filter fun w => decide (w.claim.agent = j)) = [] :=
    List.filter_eq_nil_iff.2 fun w hw own => other ((of_decide_eq_true own).symm.trans
      (of_decide_eq_true (List.mem_filter.1 hw).2))
  rw [(endAllOf_left k cause distinct).agents, (endLeasesOf_ended k cause s).agents j other, none]
  rfl

theorem endAllOf_allOfAgentEnded : AllOfAgentEnded s (endAllOf k cause s) k cause := by
  have ended := endLeasesOf_ended k cause s
  have left := endAllOf_left k cause distinct
  have leases := endAllOf_leases k cause s
  have self := endAllOf_agent_self k cause distinct
  have slots : ∀ i, (endLeasesOf k cause s).waitSlot i = s.waitSlot i := fun i => by rw [ended.frame]; rfl
  refine ⟨fun i l held own => ?_, fun i other => ?_, endAllOf_waiters k cause distinct, fun w hw own => ?_,
    fun i other => ?_, congrArg AgentRecord.leaseCount self, congrArg AgentRecord.waitCount self,
    fun j => endAllOf_agent_ne k cause distinct⟩
  · subst own
    rw [leases]
    exact ended.visited i ((mem_holdings s _ i).2 ⟨l, held, rfl⟩) l held
  · rw [leases]
    refine ended.others i fun member => ?_
    obtain ⟨l, held, own⟩ := (mem_holdings s k i).1 member
    exact other l held own
  · subst own
    rw [left.slots w (List.mem_filter.2 ⟨hw, decide_eq_true rfl⟩), slots]
    rfl
  · rw [left.others i fun w hw same => ?_, slots]
    obtain ⟨waits, own⟩ := List.mem_filter.1 hw
    exact other w waits same (of_decide_eq_true own)

end EndAll

/-- What an agent's state and cause are does not matter to the end of all it has. -/
theorem AllOfAgentEnded.of_setAgent {s t : State} {k : AgentNo} {cause : EndCause} {a : AgentRecord}
    (h : AllOfAgentEnded (s.setAgent k a) t k cause) (leases : a.leaseCount = (s.agent k).leaseCount)
    (waits : a.waitCount = (s.agent k).waitCount) : AllOfAgentEnded s t k cause := by
  obtain ⟨ended, kept, waiters, dropped, slots, leaseCount, waitCount, others⟩ := h
  rw [State.setAgent_agent_self] at leaseCount waitCount
  refine ⟨ended, kept, waiters, dropped, slots, leases ▸ leaseCount, waits ▸ waitCount, fun j other => ?_⟩
  exact (others j other).trans (State.setAgent_agent_ne s k a j other)

/-- The end of all of an agent whose record was marked before: what ends, the record, and the rest. -/
theorem endAllOf_setAgent {s : State} (k : AgentNo) (cause : EndCause) {a : AgentRecord} (distinct : WaitSlotsDistinct s)
    (leases : a.leaseCount = (s.agent k).leaseCount) (waits : a.waitCount = (s.agent k).waitCount) :
    ∃ u, endAllOf k cause (s.setAgent k a) = u ∧ AllOfAgentEnded s u k cause
      ∧ u.agent k = { a with leaseCount := (u.agent k).leaseCount, waitCount := (u.agent k).waitCount }
      ∧ DiffersByEnds (s.setAgent k a) u := by
  have all : AllOfAgentEnded (s.setAgent k a) _ k cause := endAllOf_allOfAgentEnded k cause distinct
  have self := endAllOf_agent_self (s := s.setAgent k a) k cause distinct
  refine ⟨_, rfl, all.of_setAgent leases waits, ?_, endAllOf_differsByEnds k cause _⟩
  rw [self, State.setAgent_agent_self]

/-! #### A fence (R101, R102) -/

theorem fence_of_attached {s : State} {k : AgentNo} (cause : FenceCause) (attached : (s.agent k).state = .attached) :
    fence k cause s = postNotice k (.fenced cause (holdings s k).length (waitersOf s k).length)
      ((endAllOf k .fenced (s.setAgent k { s.agent k with state := .fenced, fenceCause := some cause })).setCursor k none) := by
  simp only [fence, attached, waitersOf_endLeasesOf]
  rfl

theorem fence_of_not_attached {s : State} {k : AgentNo} (cause : FenceCause) (other : (s.agent k).state ≠ .attached) :
    fence k cause s = s := by
  unfold fence
  split
  · next attached => exact absurd attached other
  · rfl
  · rfl

/-- Settles O29: the mark on the agent's record changes neither what it holds nor its counts, and all of it ends. -/
theorem fenceEndsEverythingOfTheAgent : Obligations.FenceEndsEverythingOfTheAgent := by
  intro s j cause attached distinct
  obtain ⟨u, rest, ended, self, ends⟩ := endAllOf_setAgent j .fenced (s := s)
    (a := { s.agent j with state := .fenced, fenceCause := some cause }) distinct rfl rfl
  rw [fence_of_attached cause attached, rest]
  refine ⟨ended, self, ?_⟩
  obtain ⟨_, _, _, _, rfl⟩ := ends
  rfl

end Sys2Proof.Machine

/-! ### DETACH (R53, R120, R147) -/

namespace Sys2Proof.Machine

/-- DETACH's steps before the re-examination (R120). -/
theorem detachAgent_eq (k : AgentNo) (s : State) :
    detachAgent k s =
      let u := endAllOf k .detached (s.setAgent k { s.agent k with state := .detached })
      (u.setNotice k { u.notice k with queue := [] }).setCursor k none := rfl

theorem execDetach_admitted {s : State} {k : AgentNo} {r : Request} (admitted : Admitted s k .detach r) :
    exec (.detach k) s =
      let q := reexamine (detachAgent k (s.serve (agentPort k)))
      .next (replied (agentPort k) r .ok
        (num1 (holdings s k).length ++ num1 (waitersOf s k).length ++ num1 q.2) q.1) :=
  engineTakes_admitted (fun _ => detachAction k) admitted

/-- Settles O32: the state before the re-examination is the one with all of the agent ended, its queue empty and its
cursor closed. -/
theorem detachEndsEverythingOfTheAgent : Obligations.DetachEndsEverythingOfTheAgent := by
  intro s k r admitted distinct
  obtain ⟨u, rest, ended, self, ends⟩ := endAllOf_setAgent k .detached (s := s.serve (agentPort k))
    (a := { s.agent k with state := .detached }) distinct rfl rfl
  refine ⟨(u.setNotice k { u.notice k with queue := [] }).setCursor k none, ended, self, ?_, ?_⟩
  · obtain ⟨_, _, _, _, rfl⟩ := ends
    rfl
  · rw [execDetach_admitted admitted, detachAgent_eq, ← rest]
    rfl

end Sys2Proof.Machine

/-! ### CANCEL (R41, R54, R55) -/

namespace Sys2Proof.Machine

/-! #### What a wait id names (R41) -/

section Resolve

variable {s : State}

theorem resolveWait_of_waiting (distinct : WaitSlotsDistinct s) {w : Waiter} (waits : w ∈ s.waiters) :
    resolveWait s w.id = .waiting w := by
  have found : findWaiter s w.id = some w := by
    cases found : findWaiter s w.id with
    | none => exact absurd rfl (of_decide_eq_false (Bool.eq_false_iff.2 (List.find?_eq_none.1 found w waits)))
    | some v =>
      have same : v.id = w.id := of_decide_eq_true (List.find?_some (p := fun v : Waiter => decide (v.id = w.id)) found)
      rw [waiter_eq_of_slot distinct (List.mem_of_find?_eq_some found) waits (congrArg WaitId.slot same)]
  simp only [resolveWait, found]

theorem findWaiter_eq_none {id : WaitId} : findWaiter s id = none ↔ ∀ w ∈ s.waiters, w.id ≠ id := by
  simp [findWaiter]

theorem resolveWait_of_otherGen (distinct : WaitSlotsDistinct s) {id : WaitId} {w : Waiter} (waits : w ∈ s.waiters)
    (slot : w.id.slot = id.slot) (gen : w.id.gen ≠ id.gen) : resolveWait s id = .noWaiter := by
  have none : findWaiter s id = none := findWaiter_eq_none.2 fun v hv same => by
    obtain rfl := waiter_eq_of_slot distinct hv waits (same ▸ slot.symm)
    exact gen (same ▸ rfl)
  simp only [resolveWait, none, if_pos ((waitOccupied_iff s id.slot).2 ⟨w, waits, slot⟩)]

variable {id : WaitId} (empty : ∀ w ∈ s.waiters, w.id.slot ≠ id.slot)
include empty

theorem findWaiter_of_empty : findWaiter s id = none :=
  findWaiter_eq_none.2 fun w hw same => empty w hw (same ▸ rfl)

theorem not_waitOccupied_of_empty : ¬waitOccupied s id.slot = true := fun occupied => by
  obtain ⟨w, hw, slot⟩ := (waitOccupied_iff s id.slot).1 occupied
  exact empty w hw slot

theorem resolveWait_of_noMemory (memory : (s.waitSlot id.slot).memory = none) : resolveWait s id = .noWaiter := by
  simp only [resolveWait, findWaiter_of_empty empty, if_neg (not_waitOccupied_of_empty empty), memory]

theorem resolveWait_of_otherMemory {m : WaitMemory} (memory : (s.waitSlot id.slot).memory = some m)
    (gen : m.gen ≠ id.gen) : resolveWait s id = .noWaiter := by
  simp only [resolveWait, findWaiter_of_empty empty, if_neg (not_waitOccupied_of_empty empty), memory, if_neg gen]

theorem resolveWait_of_memory {m : WaitMemory} (memory : (s.waitSlot id.slot).memory = some m) (gen : m.gen = id.gen) :
    resolveWait s id = .ended m := by
  simp only [resolveWait, findWaiter_of_empty empty, if_neg (not_waitOccupied_of_empty empty), memory, if_pos gen]

end Resolve

/-! #### The request -/

theorem waitIdOf_of_high {n : Nat} (high : 24 * 1024 ≤ n) (width : n < 65536) : waitIdOf (natOfBytes (num2 n)) = none := by
  rw [natOfBytes_num2 n width, waitIdOf, dif_neg (by omega)]

section Cancel

variable {s : State} {k : AgentNo} {r : Request} (admitted : Admitted s k .cancel r)
include admitted

theorem execCancel_admitted :
    exec (.cancel k) s =
      let q := cancelAction k r.body (s.serve (agentPort k))
      .next (replied (agentPort k) r q.2.outcome q.2.body q.1) :=
  engineTakes_admitted (cancelAction k) admitted

theorem execCancel_of_noId (bad : waitIdOf (natOfBytes r.body) = none) :
    exec (.cancel k) s = .next (replied (agentPort k) r .badField [] (s.serve (agentPort k))) := by
  rw [execCancel_admitted admitted]
  simp only [cancelAction, bad, refuse]

variable {id : WaitId} (body : r.body = waitIdBytes id)
include body

theorem execCancel_of_noWaiter (resolved : resolveWait s id = .noWaiter) :
    exec (.cancel k) s = .next (replied (agentPort k) r .noSuchWait [] (s.serve (agentPort k))) := by
  have served : resolveWait (s.serve (agentPort k)) id = .noWaiter := resolved
  rw [execCancel_admitted admitted]
  simp only [cancelAction, body, waitIdOf_waitIdBytes, served, refuse]

theorem execCancel_of_foreignMemory {m : WaitMemory} (resolved : resolveWait s id = .ended m) (other : m.agent ≠ k) :
    exec (.cancel k) s = .next (replied (agentPort k) r .notHolder (num1 m.agent.val) (s.serve (agentPort k))) := by
  have served : resolveWait (s.serve (agentPort k)) id = .ended m := resolved
  rw [execCancel_admitted admitted]
  simp only [cancelAction, body, waitIdOf_waitIdBytes, served, if_neg other]

theorem execCancel_of_ownMemory {m : WaitMemory} (resolved : resolveWait s id = .ended m) (own : m.agent = k) :
    exec (.cancel k) s = .next (replied (agentPort k) r .waitEnded (waitEndBytes m.cause) (s.serve (agentPort k))) := by
  have served : resolveWait (s.serve (agentPort k)) id = .ended m := resolved
  rw [execCancel_admitted admitted]
  simp only [cancelAction, body, waitIdOf_waitIdBytes, served, if_pos own]

theorem execCancel_of_foreignWaiter {w : Waiter} (resolved : resolveWait s id = .waiting w) (other : w.claim.agent ≠ k) :
    exec (.cancel k) s = .next (replied (agentPort k) r .notHolder (num1 w.claim.agent.val) (s.serve (agentPort k))) := by
  have served : resolveWait (s.serve (agentPort k)) id = .waiting w := resolved
  rw [execCancel_admitted admitted]
  simp only [cancelAction, body, waitIdOf_waitIdBytes, served, if_neg other]

theorem execCancel_of_ownWaiter {w : Waiter} (resolved : resolveWait s id = .waiting w) (own : w.claim.agent = k) :
    let q := reexamine (depart .cancelled w (s.serve (agentPort k)))
    exec (.cancel k) s = .next (replied (agentPort k) r .cancelled (waitIdBytes w.id ++ num1 q.2) q.1) := by
  have served : resolveWait (s.serve (agentPort k)) id = .waiting w := resolved
  rw [execCancel_admitted admitted]
  simp only [cancelAction, body, waitIdOf_waitIdBytes, served, if_pos own, cancelWaiter]

end Cancel

/-- Settles O34: what the wait id names decides, and the agent's own waiter departs before the re-examination. -/
theorem cancelRemovesTheWaiter : Obligations.CancelRemovesTheWaiter := by
  intro s k r admitted distinct refused
  refine ⟨fun n high width body => ?_, fun id body => ⟨?_, ?_, fun empty => ⟨fun memory => ?_, fun m memory => ?_⟩⟩⟩
  · exact execCancel_of_noId admitted (body ▸ waitIdOf_of_high high width)
  · rintro w waits rfl
    have resolved := resolveWait_of_waiting distinct waits
    refine ⟨execCancel_of_foreignWaiter admitted body resolved, ?_⟩
    rintro rfl
    exact execCancel_of_ownWaiter admitted body resolved rfl
  · rintro ⟨w, waits, slot, gen⟩
    exact execCancel_of_noWaiter admitted body (resolveWait_of_otherGen distinct waits slot gen)
  · exact execCancel_of_noWaiter admitted body (resolveWait_of_noMemory empty memory)
  · refine ⟨fun gen => ?_, fun gen other => ?_, fun gen own => ?_⟩
    · exact execCancel_of_noWaiter admitted body (resolveWait_of_otherMemory empty memory gen)
    · exact execCancel_of_foreignMemory admitted body (resolveWait_of_memory empty memory gen) other
    · have ended := execCancel_of_ownMemory admitted body (resolveWait_of_memory empty memory gen) own
      refine ⟨fun lease cause => ?_, fun cause => ?_, fun cause => ?_, fun cause => ?_⟩ <;>
        · rw [cause] at ended
          exact ended

end Sys2Proof.Machine

/-! ### The wait countdown (R46, R51, R52) -/

namespace Sys2Proof.Machine

/-- What a tick makes of a waiter: UNBOUNDED it stays, bounded it is counted down, and at its last tick it lapses. -/
def countedWaiter (w : Waiter) : Option Waiter :=
  match w.left with
  | .unbounded => some w
  | .bounded n => if n ≤ 1 then none else some { w with left := .bounded (n - 1) }

/-- A bounded waiter at its last tick. -/
def lapses (w : Waiter) : Bool :=
  match w.left with
  | .unbounded => false
  | .bounded n => decide (n ≤ 1)

theorem lapses_iff {w : Waiter} : lapses w = true ↔ ∃ n, w.left = .bounded n ∧ n ≤ 1 := by
  unfold lapses
  cases w.left <;> simp

/-- The three cases of a waiter (R51, R52). -/
theorem countdownWaiter_cases (w : Waiter) (s : State) :
    lapses w = true ∧ countedWaiter w = none ∧ countdownWaiter w s = lapseWaiter w s
      ∨ lapses w = false ∧ countedWaiter w = some w ∧ countdownWaiter w s = s
      ∨ ∃ n, lapses w = false ∧ countedWaiter w = some { w with left := .bounded n }
        ∧ countdownWaiter w s = updateWaiter w.id (fun v => { v with left := .bounded n }) s := by
  cases left : w.left with
  | unbounded => exact .inr (.inl (by simp [lapses, countedWaiter, countdownWaiter, left]))
  | bounded n =>
    by_cases due : n ≤ 1
    · exact .inl (by simp [lapses, countedWaiter, countdownWaiter, left, due])
    · exact .inr (.inr ⟨n - 1, by simp [lapses, countedWaiter, countdownWaiter, left, due]⟩)

/-! #### The list -/

/-- The waiters before the one counted have been seen, and those behind are to come. -/
theorem countdownWaiter_waiters {front back : List Waiter} {w : Waiter} {s : State} (split : s.waiters = front ++ w :: back)
    (nodup : (s.waiters.map (·.id)).Nodup) :
    (countdownWaiter w s).waiters = front ++ (countedWaiter w).toList ++ back := by
  rw [split] at nodup
  rcases countdownWaiter_cases w s with ⟨-, counted, result⟩ | ⟨-, counted, result⟩ | ⟨n, -, counted, result⟩
  · have waiters : (lapseWaiter w s).waiters = s.waiters.filter fun v => decide (v.id ≠ w.id) := rfl
    rw [result, counted, waiters, split, filter_ne_of_split nodup]
    simp
  · rw [result, counted, split]
    simp
  · rw [result, counted, updateWaiter, split]
    refine (map_update_of_split nodup _).trans ?_
    simp

theorem countedWaiter_id {w v : Waiter} (h : countedWaiter w = some v) : v.id = w.id := by
  unfold countedWaiter at h
  split at h
  · cases h; rfl
  · split at h <;> cases h
    rfl

theorem countdown_waiters : ∀ (back : List Waiter) {front : List Waiter} {s : State}, s.waiters = front ++ back →
    (s.waiters.map (·.id)).Nodup →
    (back.foldl (fun t w => countdownWaiter w t) s).waiters = front ++ back.filterMap countedWaiter
  | [], front, s, split, _ => by simpa using split
  | w :: back, front, s, split, nodup => by
    have waiters := countdownWaiter_waiters split nodup
    have shorter : ((countdownWaiter w s).waiters.map (·.id)).Sublist (s.waiters.map (·.id)) := by
      rw [waiters, split]
      cases counted : countedWaiter w with
      | none => simp
      | some v => simp [countedWaiter_id counted]
    refine (countdown_waiters back waiters (nodup.sublist shorter)).trans ?_
    cases counted : countedWaiter w <;> simp [counted]

/-! #### Slots, counts and notices -/

/-- From s to t the wait countdown has visited the waiters given, as far as slots, counts and notices show it. -/
structure Visited (s t : State) (ws : List Waiter) : Prop where
  left : Left .lapsed s t (ws.filter lapses)
  notices : ∀ k, t.notice k = ((ws.filter lapses).filter fun w => decide (w.claim.agent = k)).foldl
    (fun q w => storeNotice (.waitLapsed w.id w.claim.tag) q) (s.notice k)
  frame : ∃ waiters waitSlots agents notices,
    t = { s with waiters := waiters, waitSlots := waitSlots, agents := agents, notices := notices }

theorem Visited.refl (s : State) : Visited s s [] := ⟨.of_same rfl rfl, fun _ => rfl, _, _, _, _, rfl⟩

theorem Visited.cons {s t u : State} {w : Waiter} {ws : List Waiter} (first : Visited s t [w]) (rest : Visited t u ws)
    (apart : ∀ v ∈ ws, v.id.slot ≠ w.id.slot) : Visited s u (w :: ws) := by
  have lapsing : (w :: ws).filter lapses = [w].filter lapses ++ ws.filter lapses := by
    rw [← List.filter_append, List.singleton_append]
  refine ⟨?_, fun k => ?_, ?_⟩
  · rw [lapsing]
    refine first.left.append rest.left fun v hv x hx => ?_
    obtain rfl := List.mem_singleton.1 (List.mem_filter.1 hv).1
    exact (apart x (List.mem_filter.1 hx).1).symm
  · rw [lapsing, rest.notices, first.notices, ← List.foldl_append, ← List.filter_append]
  · obtain ⟨_, _, _, _, rfl⟩ := first.frame
    obtain ⟨_, _, _, _, rfl⟩ := rest.frame
    exact ⟨_, _, _, _, rfl⟩

theorem countdownWaiter_visited (w : Waiter) (s : State) : Visited s (countdownWaiter w s) [w] := by
  rcases countdownWaiter_cases w s with ⟨lapsing, -, result⟩ | ⟨stays, -, result⟩ | ⟨n, stays, -, result⟩
  · rw [result]
    refine ⟨?_, fun k => ?_, _, _, _, _, rfl⟩
    · have departed := depart_left .lapsed w s
      rw [List.filter_cons_of_pos lapsing]
      exact ⟨departed.slots, departed.others, departed.agents⟩
    · rw [List.filter_cons_of_pos lapsing, lapseWaiter, postNotice_notice]
      by_cases own : w.claim.agent = k
      · rw [if_pos own, List.filter_cons_of_pos (by simpa using own)]
        rfl
      · rw [if_neg own, List.filter_cons_of_neg (by simpa using own)]
        rfl
  · rw [result]
    refine ⟨?_, fun k => ?_, _, _, _, _, rfl⟩ <;> rw [List.filter_cons_of_neg (Bool.eq_false_iff.1 stays)]
    · exact .of_same rfl rfl
    · rfl
  · rw [result]
    refine ⟨?_, fun k => ?_, _, _, _, _, rfl⟩ <;> rw [List.filter_cons_of_neg (Bool.eq_false_iff.1 stays)]
    · exact .of_same rfl rfl
    · rfl

theorem countdown_visited : ∀ (ws : List Waiter) (s : State), (ws.map (·.id.slot)).Nodup →
    Visited s (ws.foldl (fun t w => countdownWaiter w t) s) ws
  | [], s, _ => .refl s
  | w :: ws, s, nodup => by
    obtain ⟨apart, nodup⟩ := slots_apart nodup
    exact (countdownWaiter_visited w s).cons (countdown_visited ws _ nodup) apart

theorem waitCountdown_visited {s : State} (distinct : WaitSlotsDistinct s) : Visited s (waitCountdown s) s.waiters :=
  countdown_visited s.waiters s distinct

theorem waitCountdown_waiters {s : State} (distinct : WaitSlotsDistinct s) :
    (waitCountdown s).waiters = s.waiters.filterMap countedWaiter :=
  countdown_waiters s.waiters (front := []) rfl distinct.ids

/-- Settles O48: waiter after waiter, none touches the place or the slot of another. -/
theorem waitCountdownVisitsEveryWaiter : Obligations.WaitCountdownVisitsEveryWaiter := by
  intro s distinct
  have visited := waitCountdown_visited distinct
  have waiters := waitCountdown_waiters distinct
  have counts := visited.left.agents
  have notices := visited.notices
  simp only [List.filter_filter] at counts notices
  refine ⟨waiters, fun w waits due => ?_, fun i others => ?_, fun k => ⟨counts k, notices k⟩, ?_⟩
  · exact visited.left.slots w (List.mem_filter.2 ⟨waits, lapses_iff.2 due⟩)
  · refine visited.left.others i fun w hw same => ?_
    obtain ⟨waits, due⟩ := List.mem_filter.1 hw
    exact others w waits same (lapses_iff.1 due)
  · obtain ⟨_, _, _, _, frame⟩ := visited.frame
    generalize waitCountdown s = t at frame
    subst frame
    rfl

end Sys2Proof.Machine

/-! ### What a step can do to the books

The third, sixth, eighth, ninth and tenth laws read the lease table, the wait list with its arrival counter, the state
and the counts of the agents, the limits of the access records, and the notice queues. Every command acts on these by a
sequence of the acts below, with at most one queueing among them. Whether an act can make a waiter grantable is told
apart, because the eighth law asks for a re-examination after it. -/

namespace Sys2Proof.Machine

/-- None of those records differs. -/
structure SameBooks (s t : State) : Prop where
  leases : t.leases = s.leases
  waiters : t.waiters = s.waiters
  arrivals : t.arrivals = s.arrivals
  access : t.access = s.access
  notices : t.notices = s.notices
  states : ∀ k, (t.agent k).state = (s.agent k).state
  leaseCounts : ∀ k, (t.agent k).leaseCount = (s.agent k).leaseCount
  waitCounts : ∀ k, (t.agent k).waitCount = (s.agent k).waitCount

/-- One change of a notice queue: a post (R139), a reading of the lost flag (R142), an acknowledgement (R143), a new
mask (R144), a DETACH (R120) and an ATTACH (R147). -/
inductive QueueChange (q : NoticeState) : NoticeState → Prop where
  | posted (n : Notice) : QueueChange q (storeNotice n q)
  | read : QueueChange q { q with lost := false }
  | acknowledged {n : NoticeRecord} {rest : List NoticeRecord} (oldest : q.queue = n :: rest) :
      QueueChange q { q with queue := rest }
  | masked (mask : BitVec 7) : QueueChange q { q with mask := mask }
  | emptied : QueueChange q { q with queue := [] }
  | restarted : QueueChange q NoticeState.reset

/-- One act that can make no waiter grantable. -/
inductive Steady : State → State → Prop where
  | frame {s t : State} (same : SameBooks s t) : Steady s t
  | notice {s : State} {k : AgentNo} {q : NoticeState} (change : QueueChange (s.notice k) q) : Steady s (s.setNotice k q)
  | attach {s : State} {k : AgentNo} {a : AgentRecord} (state : a.state = .attached)
      (leases : a.leaseCount = (s.agent k).leaseCount) (waits : a.waitCount = (s.agent k).waitCount) :
      Steady s (s.setAgent k a)
  | reshape {s : State} {i : LeaseIdx} {l l' : Lease} (held : s.lease i = .held l) (holder : l'.holder = l.holder)
      (range : l'.range = l.range) (mode : l.mode = .exclusive → l'.mode = .exclusive) :
      Steady s (s.setLease i (.held l'))
  | grant {s : State} {c : Claim} {ahead : List Waiter} {i : LeaseIdx} (attached : (s.agent c.agent).state = .attached)
      (verdict : grantVerdict s c ahead = .grantable i) : Steady s (placeLease c i s)
  | setAccess {s : State} {k : AgentNo} {a : AccessRecord} (leases : (s.agent k).leaseCount ≤ a.leaseLimit)
      (waits : (s.agent k).waitCount ≤ a.waitLimit) (lower : a.leaseLimit ≤ (s.accessOf k).leaseLimit) :
      Steady s (s.setAccessOf k a)
  | reset {s : State} {ports : Vector Port 9} {draws : Nat} {pending : List Instr} :
      Steady s { State.reset with ports, draws, pending }

/-- One act that may make a waiter grantable. -/
inductive Loose : State → State → Prop where
  | reshape {s : State} {i : LeaseIdx} {l l' : Lease} (held : s.lease i = .held l) (holder : l'.holder = l.holder) :
      Loose s (s.setLease i (.held l'))
  | endLease {s : State} {cause : EndCause} {i : LeaseIdx} : Loose s (endLease cause i s)
  | depart {s : State} {cause : WaitEnd} {w : Waiter} (waits : w ∈ s.waiters) : Loose s (depart cause w s)
  | fence {s : State} {k : AgentNo} {cause : FenceCause} : Loose s (fence k cause s)
  | detach {s : State} {k : AgentNo} : Loose s (detachAgent k s)
  | waitCountdown {s : State} : Loose s (waitCountdown s)
  | setAccess {s : State} {k : AgentNo} {a : AccessRecord} (leases : (s.agent k).leaseCount ≤ a.leaseLimit)
      (waits : (s.agent k).waitCount ≤ a.waitLimit) : Loose s (s.setAccessOf k a)

/-- A sequence of acts. Flagged true, it re-examines the wait list after its last loose act. -/
inductive Acts (s : State) : Bool → State → Prop where
  | refl : Acts s true s
  | steady {b : Bool} {t u : State} (first : Acts s b t) (last : Steady t u) : Acts s b u
  | loose {b : Bool} {t u : State} (first : Acts s b t) (last : Loose t u) : Acts s false u
  | walk {b : Bool} {t : State} (first : Acts s b t) : Acts s true (reexamine t).1
  | forget {t : State} (first : Acts s true t) : Acts s false t

/-- What the settling of a claim establishes of a waiter that it queues (R28, R32 to R34, R40). -/
structure Queueable (s : State) (w : Waiter) : Prop where
  attached : (s.agent w.claim.agent).state = .attached
  room : (s.agent w.claim.agent).waitCount < (s.accessOf w.claim.agent).waitLimit
  fresh : ∀ v ∈ s.waiters, v.id.slot ≠ w.id.slot
  arrival : w.arrival = s.arrivals
  barred : ¬Grantable s w.claim (aheadOfClass w.claim.priority s.waiters)

/-- What a step does: a sequence of acts, or one queueing between two settled ones. -/
inductive Course (s : State) : Bool → State → Prop where
  | acts {b : Bool} {t : State} (all : Acts s b t) : Course s b t
  | queues {t u : State} {w : Waiter} (first : Acts s true t) (queue : Queueable t w)
      (last : Acts (queueWaiter w t) true u) : Course s true u

theorem Course.steady {s t u : State} {b : Bool} (h : Course s b t) (last : Steady t u) : Course s b u := by
  cases h with
  | acts all => exact .acts (all.steady last)
  | queues first queue rest => exact .queues first queue (rest.steady last)

/-! #### What touches none of the books -/

theorem SameBooks.of_agents {s t : State} (leases : t.leases = s.leases) (waiters : t.waiters = s.waiters)
    (arrivals : t.arrivals = s.arrivals) (access : t.access = s.access) (notices : t.notices = s.notices)
    (agents : t.agents = s.agents) : SameBooks s t where
  leases := leases
  waiters := waiters
  arrivals := arrivals
  access := access
  notices := notices
  states k := by rw [State.agent, agents]; rfl
  leaseCounts k := by rw [State.agent, agents]; rfl
  waitCounts k := by rw [State.agent, agents]; rfl

theorem SameBooks.refl (s : State) : SameBooks s s := .of_agents rfl rfl rfl rfl rfl rfl

theorem serve_sameBooks (s : State) (p : PortNo) : SameBooks s (s.serve p) := .of_agents rfl rfl rfl rfl rfl rfl

theorem setPort_sameBooks (s : State) (p : PortNo) (q : Port) : SameBooks s (s.setPort p q) :=
  .of_agents rfl rfl rfl rfl rfl rfl

theorem setCursor_sameBooks (s : State) (k : AgentNo) (c : Option Cursor) : SameBooks s (s.setCursor k c) :=
  .of_agents rfl rfl rfl rfl rfl rfl

theorem placeReply_sameBooks (p : PortNo) (r : Request) (a : Answer) (s : State) : SameBooks s (placeReply p r a s) :=
  setPort_sameBooks s p _

theorem countAgentDenial_sameBooks (s : State) (k : AgentNo) : SameBooks s (countAgentDenial k s) := by
  have record : ∀ j, ∃ n, (countAgentDenial k s).agent j = { s.agent j with denials := n } := by
    intro j
    refine (?_ : ∃ n, (s.setAgent k _).agent j = _)
    rw [State.setAgent_agent]
    split
    · next own => exact own ▸ ⟨_, rfl⟩
    · exact ⟨_, rfl⟩
  refine ⟨rfl, rfl, rfl, rfl, rfl, fun j => ?_, fun j => ?_, fun j => ?_⟩ <;>
    · obtain ⟨n, same⟩ := record j
      rw [same]

section Append

variable {s₀ s : State} {b : Bool} (h : Acts s₀ b s)
include h

theorem Acts.same {t : State} (same : SameBooks s t) : Acts s₀ b t := h.steady (.frame same)

theorem Acts.post (k : AgentNo) (n : Notice) : Acts s₀ b (postNotice k n s) := h.steady (.notice (.posted n))

end Append

/-! #### Operations as acts -/

section Operations

variable {s₀ s : State} (h : Acts s₀ false s)
include h

theorem expireLease_acts (i : LeaseIdx) (l : Lease) : Acts s₀ false (expireLease i l s) := (h.loose .endLease).post _ _

theorem lapseGrace_acts (i : LeaseIdx) (l : Lease) : Acts s₀ false (lapseGrace i l s) :=
  (h.loose .endLease).loose .fence

theorem lapseWaiter_acts {w : Waiter} (waits : w ∈ s.waiters) : Acts s₀ false (lapseWaiter w s) :=
  (h.loose (.depart waits)).post _ _

theorem countdownSlot_acts (i : LeaseIdx) : Acts s₀ false (countdownSlot i s) := by
  cases held : s.lease i with
  | free m =>
    rw [countdownSlot_of_free held]
    exact h
  | held l =>
    unfold countdownSlot
    simp only [held]
    split
    · split
      · exact expireLease_acts h i l
      · exact lapseGrace_acts h i l
    · have counted := h.steady (.reshape (l' := { l with remaining := l.remaining - 1 }) held rfl rfl id)
      split
      · exact counted.post _ _
      · exact counted

theorem leaseCountdown_acts : Acts s₀ false (leaseCountdown s) :=
  leaseCountdown_keeps (Acts s₀ false) (fun _ i h => countdownSlot_acts h i) s h

theorem tickStages_acts : Acts s₀ true (tickStages s) := ((leaseCountdown_acts h).loose .waitCountdown).walk

end Operations

/-- Two leases are of the same holder, over the same range, and of the same mode. -/
structure SameHold (l l' : Lease) : Prop where
  holder : l'.holder = l.holder
  range : l'.range = l.range
  mode : l'.mode = l.mode

theorem SameHold.refl (l : Lease) : SameHold l l := ⟨rfl, rfl, rfl⟩

/-- A recall changes a lease's state, origin and Remaining alone (R96). -/
theorem recallFor_acts {s₀ s : State} {b : Bool} (h : Acts s₀ b s) (w : Waiter) : Acts s₀ b (recallFor w s).1 := by
  unfold recallFor
  split
  · refine (List.foldlRecOn
      (motive := fun t => Acts s₀ b t ∧ ∀ i l, s.lease i = .held l → ∃ l', t.lease i = .held l' ∧ SameHold l l')
      (recallTargets s w) (fun t p => recallLease w (t.domain w.claim.domain).recallGrace p t)
      ⟨h, fun i l held => ⟨l, held, .refl l⟩⟩ fun t ⟨acts, holds⟩ p hp => ?_).1
    obtain ⟨j, m⟩ := p
    obtain ⟨target, -⟩ := (mem_conflictSearch ..).1 (List.mem_filter.1 hp |>.1)
    obtain ⟨m', held, same⟩ := holds j m target
    refine ⟨?_, fun i l hl => ?_⟩
    · have recalled := acts.steady (.reshape (l' := recalledLease w (t.domain w.claim.domain).recallGrace m) held
        same.holder.symm same.range.symm fun e => same.mode ▸ e)
      exact recalled.post _ _
    · rw [recallLease_lease]
      split
      · next here =>
        subst here
        obtain rfl := SlotContent.held.inj (target.symm.trans hl)
        exact ⟨_, rfl, rfl, rfl, rfl⟩
      · exact holds i l hl
  · exact h

/-! #### Requests as acts -/

section Requests

variable {s₀ s : State} (h : Acts s₀ true s)
include h

theorem queueClaim_course {c : Claim} {b : Blocked} {i : WaitIdx} (limit : Nat)
    (attached : (s.agent c.agent).state = .attached) (verdict : grantVerdict s c (aheadOfClass c.priority s.waiters) = .blocked b)
    (room : (s.agent c.agent).waitCount < (s.accessOf c.agent).waitLimit) (empty : freeWaitSlot s = some i) :
    Course s₀ true (queueClaim c limit b i s).1 := by
  have queue : Queueable s (newWaiter c limit b i s) :=
    { attached := attached
      room := room
      fresh := ((freeWaitSlot_eq_some s i).1 empty).1
      arrival := rfl
      barred := fun ⟨j, granted⟩ => nomatch verdict.symm.trans granted }
  exact .queues h queue (recallFor_acts .refl _)

theorem settleClaim_course {c : Claim} (limit : Nat) (attached : (s.agent c.agent).state = .attached) :
    Course s₀ true (settleClaim c limit s).1 := by
  unfold settleClaim
  split
  · next i verdict => exact .acts (h.steady (.grant attached verdict))
  · next b verdict =>
    split
    · exact .acts h
    split
    · exact .acts h
    next full =>
      split
      · exact .acts h
      · next i empty => exact queueClaim_course h limit attached verdict (Nat.not_le.1 full) empty

theorem acquireAction_course (k : AgentNo) (body : List Byte) (attached : (s.agent k).state = .attached) :
    Course s₀ true (acquireAction k body s).1 := by
  unfold acquireAction
  split
  · exact .acts h
  · split
    · exact .acts h
    · split
      · exact .acts h
      · exact settleClaim_course h _ attached

theorem cancelAction_acts (k : AgentNo) (body : List Byte) : Acts s₀ true (cancelAction k body s).1 := by
  unfold cancelAction
  split
  · exact h
  · next id _ =>
    split
    · exact h
    · split <;> exact h
    · next w resolved =>
      split
      · refine (h.loose (.depart ?_)).walk
        unfold resolveWait at resolved
        split at resolved
        · next found =>
          cases resolved
          exact List.mem_of_find?_eq_some found
        · split at resolved
          · cases resolved
          · split at resolved
            · split at resolved <;> cases resolved
            · cases resolved
      · exact h

omit h in
/-- Of a request that names a lease, only its work on the agent's own live lease is left to show. -/
theorem onHeldLease_acts (h : Acts s₀ true s) (k : AgentNo) (id : LeaseId) {act : Lease → Action}
    (acts : ∀ l, s.lease id.slot = .held l → Acts s₀ true (act l s).1) : Acts s₀ true (onHeldLease k id act s).1 := by
  unfold onHeldLease
  split
  · exact h
  · exact h
  · next l live =>
    split
    · exact acts l (resolveLease_eq_live.1 live).1
    · exact h

theorem renewAction_acts (k : AgentNo) (body : List Byte) : Acts s₀ true (renewAction k body s).1 := by
  unfold renewAction
  split
  · refine onHeldLease_acts h k _ fun l hl => ?_
    unfold renewLease
    dsimp only
    split
    · exact h
    split
    · exact h
    split
    · exact h
    · exact h.steady (.reshape hl rfl rfl id)
  · exact h

theorem trimAction_acts (k : AgentNo) (body : List Byte) : Acts s₀ true (trimAction k body s).1 := by
  unfold trimAction
  split
  · next range =>
    refine onHeldLease_acts h k _ fun l hl => ?_
    unfold trimLease
    split
    · exact (h.loose (.reshape (l' := { l with range := rangeOf range }) hl rfl)).walk
    · exact h
  · exact h

theorem downgradeAction_acts (k : AgentNo) (body : List Byte) : Acts s₀ true (downgradeAction k body s).1 := by
  refine onHeldLease_acts h k _ fun l hl => ?_
  unfold downgradeLease
  split
  · exact (h.loose (.reshape (l' := { l with mode := .shared }) hl rfl)).walk
  · exact h

theorem upgradeAction_acts (k : AgentNo) (body : List Byte) : Acts s₀ true (upgradeAction k body s).1 := by
  refine onHeldLease_acts h k _ fun l hl => ?_
  unfold upgradeLease
  split
  · exact h
  split
  · exact h
  split
  · exact h
  split
  · exact h
  · exact h.steady (.reshape hl rfl rfl fun _ => rfl)

theorem releaseAction_acts (k : AgentNo) (body : List Byte) : Acts s₀ true (releaseAction k body s).1 :=
  onHeldLease_acts h k _ fun _ _ => (h.loose .endLease).walk

theorem forceRevokeAction_acts (body : List Byte) : Acts s₀ true (forceRevokeAction body s).1 := by
  unfold forceRevokeAction
  dsimp only
  split
  · exact h
  · exact h
  · exact ((h.loose .endLease).post _ _).walk

theorem evictAction_acts (body : List Byte) : Acts s₀ true (evictAction body s).1 := by
  unfold evictAction
  split
  · split
    · exact h
    · split
      · exact h
      · exact h
      · exact (h.loose .fence).walk
  · exact h

theorem attachAction_acts (k : AgentNo) : Acts s₀ true (attachAction k s).1 :=
  have attached := h.steady (.attach (k := k) (a := { s.agent k with
    state := .attached, epoch := (s.agent k).epoch + 1, fenceCause := none, denials := 0 }) rfl rfl rfl)
  (attached.steady (.notice .restarted)).same (setCursor_sameBooks _ k none)

theorem resyncAction_acts (k : AgentNo) : Acts s₀ true (resyncAction k s).1 :=
  have attached := h.steady (.attach (k := k) (a := { s.agent k with
    state := .attached, epoch := (s.agent k).epoch + 1, fenceCause := none }) rfl rfl rfl)
  attached.same (setCursor_sameBooks _ k none)

theorem detachAction_acts (k : AgentNo) : Acts s₀ true (detachAction k s).1 := (h.loose .detach).walk

theorem setAccessAction_acts (body : List Byte) : Acts s₀ true (setAccessAction body s).1 := by
  unfold setAccessAction
  split
  · exact h
  · dsimp only
    split
    · exact h
    · next limits =>
      obtain ⟨leases, waits⟩ := not_or.1 limits
      rw [Nat.not_lt] at leases waits
      split
      · exact h
      · split
        · exact h
        · unfold replaceAccess
          dsimp only
          split
          · exact (h.loose (.setAccess leases waits)).walk
          · next lower => exact h.steady (.setAccess leases waits (Nat.not_lt.1 lower))

theorem setTickAction_acts (body : List Byte) : Acts s₀ true (setTickAction body s).1 :=
  h.same (.of_agents rfl rfl rfl rfl rfl rfl)

theorem configDomainAction_acts (body : List Byte) : Acts s₀ true (configDomainAction body s).1 := by
  unfold configDomainAction
  split
  · exact h
  · split
    · exact h
    · split
      · exact h
      · exact h.same (.of_agents rfl rfl rfl rfl rfl rfl)

theorem domainInfoAction_acts (body : List Byte) : Acts s₀ true (domainInfoAction body s).1 := by
  unfold domainInfoAction
  split
  · split <;> exact h
  · exact h

theorem noticeReadAction_acts (k : AgentNo) : Acts s₀ true (noticeReadAction k s).1 := by
  have read := h.steady (.notice (k := k) .read)
  unfold noticeReadAction
  dsimp only
  split
  · exact read
  · exact read.same (.of_agents rfl rfl rfl rfl rfl rfl)

theorem noticeAckAction_acts (k : AgentNo) (body : List Byte) : Acts s₀ true (noticeAckAction k body s).1 := by
  unfold noticeAckAction
  split
  · dsimp only
    split
    · exact h
    · next oldest =>
      split
      · exact h.steady (.notice (.acknowledged oldest))
      · exact h
  · exact h

theorem setNoticeMaskAction_acts (k : AgentNo) (body : List Byte) : Acts s₀ true (setNoticeMaskAction k body s).1 := by
  unfold setNoticeMaskAction
  split
  · split
    · exact h
    · exact h.steady (.notice (.masked _))
  · exact h

theorem leaseBatch_acts (k : AgentNo) (f : Filter) (start : Nat) : Acts s₀ true (leaseBatch k f start s).1 := by
  unfold leaseBatch
  dsimp only
  split <;> exact h.same (.of_agents rfl rfl rfl rfl rfl rfl)

theorem waiterBatch_acts (k : AgentNo) (f : Filter) (ws : List Waiter) : Acts s₀ true (waiterBatch k f ws s).1 := by
  unfold waiterBatch
  dsimp only
  split <;> exact h.same (.of_agents rfl rfl rfl rfl rfl rfl)

theorem nextBatch_acts (k : AgentNo) (c : Cursor) : Acts s₀ true (nextBatch k c s).1 := by
  unfold nextBatch
  split
  · exact leaseBatch_acts h _ _ _
  · exact waiterBatch_acts h _ _ _
  · exact waiterBatch_acts h _ _ _

theorem queryAction_acts (k : AgentNo) (body : List Byte) : Acts s₀ true (queryAction k body s).1 := by
  unfold queryAction
  split
  · exact h
  · exact nextBatch_acts h _ _

theorem queryNextAction_acts (k : AgentNo) : Acts s₀ true (queryNextAction k s).1 := by
  unfold queryNextAction
  split
  · exact h
  · exact nextBatch_acts h _ _

theorem checkTokenAction_acts (body : List Byte) : Acts s₀ true (checkTokenAction body s).1 := by
  unfold checkTokenAction
  split
  · exact h
  · unfold checkToken
    split
    · exact h.same (.of_agents rfl rfl rfl rfl rfl rfl)
    · dsimp only
      split
      · exact h.same (countAgentDenial_sameBooks _ _)
      · split
        · exact h.same (countAgentDenial_sameBooks _ _)
        · exact h

theorem checkAgentAction_acts (body : List Byte) : Acts s₀ true (checkAgentAction body s).1 := by
  unfold checkAgentAction
  split
  · exact h
  · unfold checkAgent
    split
    · exact h.same (countAgentDenial_sameBooks _ _)
    · exact h.same (countAgentDenial_sameBooks _ _)
    · split
      · exact h
      · exact h.same (countAgentDenial_sameBooks _ _)

end Requests

/-! #### Commands as acts -/

section Taking

variable {kind : ReqKind} {k : AgentNo} {act : List Byte → Action} {s t : State}

theorem engineTakes_acts (acts : ∀ body u, Acts s true u → Acts s true (act body u).1)
    (h : engineTakes kind k act s = .next t) : Course s true t :=
  .acts (engineTakes_keeps (Acts s true) kind k act (fun _ _ h => h.same (serve_sameBooks _ _))
    (fun _ _ _ _ h => h.same (placeReply_sameBooks _ _ _ _)) (fun _ _ h _ => acts _ _ h) .refl h)

theorem noticeUnitTakes_acts (acts : ∀ body u, Acts s true u → Acts s true (act body u).1)
    (h : noticeUnitTakes kind k act s = .next t) : Course s true t :=
  .acts (noticeUnitTakes_keeps (Acts s true) kind k act (fun _ _ _ _ h => h.same (placeReply_sameBooks _ _ _ _))
    (fun _ _ h => acts _ _ h) .refl h)

theorem checkPortTakes_acts (acts : ∀ body u, Acts s true u → Acts s true (act body u).1)
    (h : checkPortTakes kind act s = .next t) : Course s true t :=
  .acts (checkPortTakes_keeps (Acts s true) kind act (fun _ _ h => h.same (serve_sameBooks _ _))
    (fun _ _ _ _ h => h.same (placeReply_sameBooks _ _ _ _)) (fun _ _ h => acts _ _ h) .refl h)

/-- ACQUIRE is admitted from an ATTACHED agent alone (check 3 of R116), and is the one request that may queue. -/
theorem execAcquire_course (h : execAcquire k s = .next t) : Course s true t := by
  unfold execAcquire at h
  have served : Acts s true (s.serve (agentPort k)) := Acts.refl.same (serve_sameBooks _ _)
  rcases engineTakes_cases .acquire k (acquireAction k) s with result | ⟨r, a, -, result⟩ | ⟨r, -, admits, result⟩ <;>
    cases result.symm.trans h
  · exact .acts .refl
  · exact .acts (served.same (placeReply_sameBooks _ _ _ _))
  · have attached : (s.agent k).state = .attached := by
      cases state : (s.agent k).state <;> simp_all [stateAdmits]
    exact (acquireAction_course served k r.body attached).steady (.frame (placeReply_sameBooks _ _ _ _))

theorem transact_acts (p : PortNo) (transaction : Option TransactionKind) {act : List Bool → Opened → State → State}
    (phase : LinkPhase) (acts : ∀ bits o u, Acts s true u → Acts s true (act bits o u)) :
    Course s true (transact p transaction act phase s) :=
  .acts (transact_keeps (Acts s true) p transaction act phase (fun _ _ h => h.same (setPort_sameBooks _ _ _)) acts s .refl)

end Taking

section Commands

variable {s₀ s t : State}

theorem execStatus_acts {p : PortNo} (h : execStatus p s = .next t) : Course s true t := by
  unfold execStatus at h
  split at h
  · exact engineTakes_acts (fun _ _ h => h) h
  · exact checkPortTakes_acts (fun _ _ h => h) h

theorem shifts_acts (h : Acts s₀ true s) (p : PortNo) (o : Opened) (payload : List Byte) (bits : List Bool) :
    Acts s₀ true (shifts p o payload bits s) :=
  h.same (setPort_sameBooks _ _ _)

theorem closeSend_acts (h : Acts s₀ true s) (p : PortNo) (bits : List Bool) (o : Opened) :
    Acts s₀ true (closeSend p bits o s) :=
  shifts_acts (h.same (setPort_sameBooks _ _ _)) _ _ _ _

theorem closeCollect_acts (h : Acts s₀ true s) (p : PortNo) (bits : List Bool) (o : Opened) :
    Acts s₀ true (closeCollect p bits o s) := by
  unfold closeCollect
  dsimp only
  split
  · exact (shifts_acts h _ _ _ _).same (setPort_sameBooks _ _ _)
  · exact shifts_acts h _ _ _ _

theorem resetPort_acts (h : Acts s₀ true s) (p : PortNo) : Acts s₀ true (resetPort p s) := by
  unfold resetPort
  dsimp only
  split
  · exact (h.same (setPort_sameBooks _ _ _)).same (setCursor_sameBooks _ _ _)
  · exact h.same (setPort_sameBooks _ _ _)

theorem closePortReset_acts (h : Acts s₀ true s) (p : PortNo) (bits : List Bool) (o : Opened) :
    Acts s₀ true (closePortReset p bits o s) :=
  shifts_acts (resetPort_acts h p) _ _ _ _

theorem expireInterval_sameBooks (s : State) : SameBooks s (expireInterval s) := .of_agents rfl rfl rfl rfl rfl rfl

theorem execTick_acts (h : execTick s = .next t) : Course s true t := by
  refine .acts (whileTicking_keeps (Acts s true) _ (fun u acts => ?_) .refl h)
  split
  · exact acts
  · have taken : SameBooks u { u with pendingTicks := u.pendingTicks - 1 } := .of_agents rfl rfl rfl rfl rfl rfl
    exact tickStages_acts (acts.same taken).forget

theorem execLeaseExpiry_acts {i : LeaseIdx} (h : execLeaseExpiry i s = .next t) : Course s false t := by
  refine .acts (whileTicking_keeps (Acts s false) _ (fun u acts => ?_) (.forget .refl) h)
  split
  · split
    · exact expireLease_acts acts _ _
    · exact acts
  · exact acts

theorem execGraceLapse_acts {i : LeaseIdx} (h : execGraceLapse i s = .next t) : Course s false t := by
  refine .acts (whileTicking_keeps (Acts s false) _ (fun u acts => ?_) (.forget .refl) h)
  split
  · split
    · exact lapseGrace_acts acts _ _
    · exact acts
  · exact acts

theorem execWaitLapse_acts {i : WaitIdx} (h : execWaitLapse i s = .next t) : Course s false t := by
  refine .acts (whileTicking_keeps (Acts s false) _ (fun u acts => ?_) (.forget .refl) h)
  split
  · next found => exact lapseWaiter_acts acts (List.mem_of_find?_eq_some found)
  · exact acts

theorem execNoticePost_acts {arrival : List (AgentNo × Notice)} (h : execNoticePost arrival s = .next t) :
    Course s true t := by
  unfold execNoticePost whileRunning at h
  split at h <;> cases h
  · exact .acts .refl
  · exact .acts (foldl_keeps (Acts s true) _ (fun _ _ h => h.post _ _) arrival s .refl)

theorem execResetRelease_acts {straps : BitVec 2} (h : execResetRelease straps s = .next t) : Course s true t := by
  unfold execResetRelease at h
  split at h <;> cases h
  · exact .acts (Acts.refl.same (.of_agents rfl rfl rfl rfl rfl rfl))
  · exact .acts .refl

theorem execUnknownRequest_acts {p : PortNo} (h : execUnknownRequest p s = .next t) : Course s true t := by
  unfold execUnknownRequest at h
  split at h
  · split at h <;> cases h
    · exact .acts ((Acts.refl.same (serve_sameBooks _ _)).same (placeReply_sameBooks _ _ _ _))
    · exact .acts .refl
  · cases h
    exact .acts .refl

theorem passRefclk_sameBooks (s : State) : SameBooks s (passRefclk s) := by
  unfold passRefclk
  split
  · exact .refl s
  split
  · exact .of_agents rfl rfl rfl rfl rfl rfl
  split
  · exact .of_agents rfl rfl rfl rfl rfl rfl
  · exact expireInterval_sameBooks s

end Commands

/-- The commands that are not the insides of a tick (log entry 3). -/
def isWhole : Instr → Bool
  | .leaseExpiry _ | .graceLapse _ | .waitLapse _ => false
  | _ => true

/-- Every command runs a course of acts, and every whole one a settled course. -/
theorem exec_course (c : Instr) {s t : State} (h : exec c s = .next t) : Course s (isWhole c) t := by
  cases c with
  | acquire k => exact execAcquire_course h
  | cancel k => exact engineTakes_acts (fun body _ h => cancelAction_acts h k body) h
  | renew k => exact engineTakes_acts (fun body _ h => renewAction_acts h k body) h
  | trim k => exact engineTakes_acts (fun body _ h => trimAction_acts h k body) h
  | downgrade k => exact engineTakes_acts (fun body _ h => downgradeAction_acts h k body) h
  | upgrade k => exact engineTakes_acts (fun body _ h => upgradeAction_acts h k body) h
  | release k => exact engineTakes_acts (fun body _ h => releaseAction_acts h k body) h
  | setTick k => exact engineTakes_acts (fun body _ h => setTickAction_acts h body) h
  | forceRevoke k => exact engineTakes_acts (fun body _ h => forceRevokeAction_acts h body) h
  | evict k => exact engineTakes_acts (fun body _ h => evictAction_acts h body) h
  | attach k => exact engineTakes_acts (fun _ _ h => attachAction_acts h k) h
  | detach k => exact engineTakes_acts (fun _ _ h => detachAction_acts h k) h
  | resync k => exact engineTakes_acts (fun _ _ h => resyncAction_acts h k) h
  | setAccess k => exact engineTakes_acts (fun body _ h => setAccessAction_acts h body) h
  | configDomain k => exact engineTakes_acts (fun body _ h => configDomainAction_acts h body) h
  | domainInfo k => exact engineTakes_acts (fun body _ h => domainInfoAction_acts h body) h
  | noticeRead k => exact noticeUnitTakes_acts (fun _ _ h => noticeReadAction_acts h k) h
  | noticeAck k => exact noticeUnitTakes_acts (fun body _ h => noticeAckAction_acts h k body) h
  | setNoticeMask k => exact noticeUnitTakes_acts (fun body _ h => setNoticeMaskAction_acts h k body) h
  | query k => exact engineTakes_acts (fun body _ h => queryAction_acts h k body) h
  | queryNext k => exact engineTakes_acts (fun _ _ h => queryNextAction_acts h k) h
  | status p => exact execStatus_acts h
  | checkToken => exact checkPortTakes_acts (fun body _ h => checkTokenAction_acts h body) h
  | checkAgent => exact checkPortTakes_acts (fun body _ h => checkAgentAction_acts h body) h
  | send p phase => cases h; exact transact_acts p _ phase fun bits o _ h => closeSend_acts h p bits o
  | collect p phase => cases h; exact transact_acts p _ phase fun bits o _ h => closeCollect_acts h p bits o
  | portReset p phase => cases h; exact transact_acts p _ phase fun bits o _ h => closePortReset_acts h p bits o
  | ignoredTransaction p phase => cases h; exact transact_acts p _ phase fun _ _ _ h => shifts_acts h _ _ _ _
  | deviceReset => cases h; exact .acts (Acts.refl.steady .reset)
  | resetRelease straps => exact execResetRelease_acts h
  | intervalExpiry =>
    exact .acts (whileTicking_keeps (Acts s true) _ (fun u acts => acts.same (expireInterval_sameBooks u)) .refl h)
  | tick => exact execTick_acts h
  | leaseExpiry i => exact execLeaseExpiry_acts h
  | graceLapse i => exact execGraceLapse_acts h
  | waitLapse i => exact execWaitLapse_acts h
  | noticePost arrival => exact execNoticePost_acts h
  | unknownRequest p => exact execUnknownRequest_acts h

/-- What a step begins with touches none of the books. -/
theorem setPending_sameBooks (s : State) (rest : List Instr) : SameBooks s { s with pending := rest } :=
  .of_agents rfl rfl rfl rfl rfl rfl

/-- Every step, the idle cycle of REFCLK too, runs a course from a state with the same books. -/
theorem step_course {s t : State} (h : step s = .next t) :
    ∃ u b, SameBooks s u ∧ Course u b t
      ∧ ((∀ c rest, s.pending = c :: rest → isWhole c = true) → b = true) := by
  unfold step at h
  split at h
  · cases h
    exact ⟨_, true, passRefclk_sameBooks s, .acts .refl, fun _ => rfl⟩
  · next c rest waiting =>
    exact ⟨_, _, setPending_sameBooks s rest, exec_course c h, fun whole => whole c rest waiting⟩

end Sys2Proof.Machine

/-! ### Properties that every act keeps -/

namespace Sys2Proof.Machine

/-- A property that each part of an act keeps, whatever the act's checks. -/
structure Robust (P : State → Prop) : Prop where
  frame : ∀ s t, SameBooks s t → P s → P t
  notice : ∀ s k q, QueueChange (s.notice k) q → P s → P (s.setNotice k q)
  agent : ∀ s k a, P s → P (s.setAgent k a)
  lease : ∀ s i c, P s → P (s.setLease i c)
  place : ∀ s c i, P s → P (placeLease c i s)
  access : ∀ s k a, P s → P (s.setAccessOf k a)
  depart : ∀ s cause w, P s → P (depart cause w s)
  rewrite : ∀ s id f, (∀ w, keep (f w) = keep w) → P s → P (updateWaiter id f s)
  reset : ∀ s ports draws pending, P s → P { State.reset with ports, draws, pending }

section Robust

variable {P : State → Prop} (robust : Robust P)
include robust

theorem Robust.post (s : State) (k : AgentNo) (n : Notice) (h : P s) : P (postNotice k n s) :=
  robust.notice _ _ _ (.posted n) h

theorem Robust.cursor (s : State) (k : AgentNo) (c : Option Cursor) (h : P s) : P (s.setCursor k c) :=
  robust.frame _ _ (setCursor_sameBooks s k c) h

theorem Robust.endLease (s : State) (cause : EndCause) (i : LeaseIdx) (h : P s) : P (endLease cause i s) := by
  cases content : s.lease i with
  | free m =>
    rw [endLease_free cause content]
    exact h
  | held l =>
    rw [endLease_held cause content]
    exact robust.agent _ _ _ (robust.lease _ _ _ h)

theorem Robust.endAllOf (s : State) (k : AgentNo) (cause : EndCause) (h : P s) : P (endAllOf k cause s) :=
  dropWaitersOf_keeps P (fun _ _ h => robust.depart _ _ _ h) k _
    (endLeasesOf_keeps P cause (fun _ _ h => robust.endLease _ _ _ h) k s h)

theorem Robust.fence (s : State) (k : AgentNo) (cause : FenceCause) (h : P s) : P (fence k cause s) :=
  fence_keeps P (fun _ _ _ h _ => robust.agent _ _ _ h) (fun _ _ h => robust.endLease _ _ _ h)
    (fun _ _ h => robust.depart _ _ _ h) (fun _ _ h => robust.cursor _ _ _ h) (fun _ _ _ h => robust.post _ _ _ h)
    k cause s h

theorem Robust.detach (s : State) (k : AgentNo) (h : P s) : P (detachAgent k s) := by
  rw [detachAgent_eq]
  exact robust.cursor _ _ _ (robust.notice _ _ _ .emptied (robust.endAllOf _ _ _ (robust.agent _ _ _ h)))

theorem Robust.waitCountdown (s : State) (h : P s) : P (waitCountdown s) := by
  refine waitCountdown_keeps P (fun t w h => ?_) s h
  rcases countdownWaiter_cases w t with ⟨-, -, result⟩ | ⟨-, -, result⟩ | ⟨n, -, -, result⟩
  · exact result ▸ robust.post _ _ _ (robust.depart _ _ _ h)
  · rw [result]
    exact h
  · exact result ▸ robust.rewrite _ _ _ (fun _ => rfl) h

theorem Robust.walk (s : State) (h : P s) : P (reexamine s).1 :=
  reexamine_keeps P (fun _ _ _ h _ => robust.post _ _ _ (robust.depart _ _ _ (robust.place _ _ _ h)))
    (fun _ _ _ h => robust.rewrite _ _ _ (fun _ => rfl) h) s h

theorem Robust.steady {s t : State} (act : Steady s t) (h : P s) : P t := by
  cases act with
  | frame same => exact robust.frame _ _ same h
  | notice change => exact robust.notice _ _ _ change h
  | attach => exact robust.agent _ _ _ h
  | reshape => exact robust.lease _ _ _ h
  | grant => exact robust.place _ _ _ h
  | setAccess => exact robust.access _ _ _ h
  | reset => exact robust.reset _ _ _ _ h

theorem Robust.loose {s t : State} (act : Loose s t) (h : P s) : P t := by
  cases act with
  | reshape => exact robust.lease _ _ _ h
  | endLease => exact robust.endLease _ _ _ h
  | depart => exact robust.depart _ _ _ h
  | fence => exact robust.fence _ _ _ h
  | detach => exact robust.detach _ _ h
  | waitCountdown => exact robust.waitCountdown _ h
  | setAccess => exact robust.access _ _ _ h

theorem Robust.acts {s t : State} {b : Bool} (acts : Acts s b t) (h : P s) : P t := by
  induction acts with
  | refl => exact h
  | steady _ last ih => exact robust.steady last ih
  | loose _ last ih => exact robust.loose last ih
  | walk _ ih => exact robust.walk _ ih
  | forget _ ih => exact ih

end Robust

/-- A property that the acts and a queueing keep, a course keeps. -/
theorem Course.keep {P : State → Prop} (acts : ∀ {s t b}, Acts s b t → P s → P t)
    (queue : ∀ {s w}, Queueable s w → P s → P (queueWaiter w s)) {s t : State} {b : Bool} (h : Course s b t) (hs : P s) :
    P t := by
  cases h with
  | acts all => exact acts all hs
  | queues first queueable last => exact acts last (queue queueable (acts first hs))

end Sys2Proof.Machine

/-! ### The order of the list along a step (R42, R44, R45) -/

namespace Sys2Proof.Machine

/-! #### The list thins out -/

/-- The waiters of t are waiters of s, in their order, with their ids, arrivals and priorities, and the arrival counter
has not moved unless none is left. -/
structure Thinned (s t : State) : Prop where
  kept : (t.waiters.map keep).Sublist (s.waiters.map keep)
  arrivals : t.arrivals = s.arrivals ∨ t.waiters = []

theorem Thinned.refl (s : State) : Thinned s s := ⟨.refl _, .inl rfl⟩

theorem Thinned.trans {s t u : State} (first : Thinned s t) (second : Thinned t u) : Thinned s u := by
  refine ⟨second.kept.trans first.kept, ?_⟩
  rcases first.arrivals with same | none
  · exact second.arrivals.imp_left fun h => h.trans same
  · refine .inr (List.map_eq_nil_iff.1 (List.sublist_nil.1 (?_ : (u.waiters.map keep).Sublist [])))
    have kept := second.kept
    rw [none] at kept
    exact kept

theorem Thinned.of_same {s t : State} (waiters : t.waiters = s.waiters) (arrivals : t.arrivals = s.arrivals) :
    Thinned s t :=
  ⟨waiters ▸ .refl _, .inl arrivals⟩

/-- What a rewriting does not touch, the list shows as before. -/
theorem map_updateWaiter {α : Type} {f : Waiter → Waiter} {read : Waiter → α} (same : ∀ w, read (f w) = read w)
    (id : WaitId) (s : State) : (updateWaiter id f s).waiters.map read = s.waiters.map read := by
  rw [updateWaiter, List.map_map]
  refine List.map_congr_left fun w _ => ?_
  rw [Function.comp_apply]
  split
  · exact same w
  · rfl

theorem thinned_robust (s : State) : Robust (Thinned s) where
  frame _ _ same h := h.trans (.of_same same.waiters same.arrivals)
  notice _ _ _ _ h := h.trans (.of_same rfl rfl)
  agent _ _ _ h := h.trans (.of_same rfl rfl)
  lease _ _ _ h := h.trans (.of_same rfl rfl)
  place _ _ _ h := h.trans (.of_same rfl rfl)
  access _ _ _ h := h.trans (.of_same rfl rfl)
  depart _ _ _ h := h.trans ⟨List.filter_sublist.map keep, .inl rfl⟩
  rewrite _ _ _ same h := h.trans ⟨by rw [map_updateWaiter same], .inl rfl⟩
  reset _ _ _ _ h := h.trans ⟨List.nil_sublist _, .inr rfl⟩

theorem Acts.thinned {s t : State} {b : Bool} (acts : Acts s b t) : Thinned s t := (thinned_robust s).acts acts (.refl s)

theorem Thinned.waitSlotsDistinct {s t : State} (h : Thinned s t) (distinct : WaitSlotsDistinct s) :
    WaitSlotsDistinct t := by
  have slots : ∀ ws : List Waiter, (ws.map keep).map (·.id.slot) = ws.map (·.id.slot) := fun _ => List.map_map
  rw [WaitSlotsDistinct, ← slots] at distinct ⊢
  exact distinct.sublist (h.kept.map _)

/-! #### The classes -/

theorem classesInOrder_iff {s : State} :
    ClassesInOrder s ↔ (s.waiters.map keep).Pairwise fun a b => b.priority = .urgent → a.priority = .urgent := by
  rw [List.pairwise_map]
  rfl

theorem Thinned.classesInOrder {s t : State} (h : Thinned s t) (law : ClassesInOrder s) : ClassesInOrder t :=
  classesInOrder_iff.2 ((classesInOrder_iff.1 law).sublist h.kept)

/-- Where a new waiter goes (R44). With the classes in order, those before it are those of equal or higher class. -/
theorem insertWaiter_split (w : Waiter) (ws : List Waiter) : ∃ front back, ws = front ++ back
    ∧ insertWaiter w ws = front ++ w :: back
    ∧ ((ws.Pairwise fun a b => b.claim.priority = .urgent → a.claim.priority = .urgent) →
      front = aheadOfClass w.claim.priority ws
        ∧ ∀ v ∈ back, w.claim.priority = .urgent ∧ v.claim.priority = .normal) := by
  unfold insertWaiter
  cases w.claim.priority with
  | normal => exact ⟨ws, [], (List.append_nil ws).symm, rfl, fun _ => ⟨rfl, nofun⟩⟩
  | urgent =>
    refine ⟨ws.takeWhile isUrgent, ws.dropWhile isUrgent, List.takeWhile_append_dropWhile.symm, rfl, fun inOrder => ?_⟩
    have split := takeWhile_dropWhile_of_inOrder (p := isUrgent) (xs := ws)
      (inOrder.imp fun h urgent => decide_eq_true (h (of_decide_eq_true urgent)))
    refine ⟨split.1, fun v hv => ⟨rfl, ?_⟩⟩
    rw [split.2, List.mem_filter, not_isUrgent] at hv
    exact of_decide_eq_true hv.2

theorem mem_aheadOfClass {p : Priority} {ws : List Waiter} {v : Waiter} (h : v ∈ aheadOfClass p ws) :
    v ∈ ws ∧ (p = .urgent → v.claim.priority = .urgent) := by
  cases p with
  | normal => exact ⟨h, nofun⟩
  | urgent => exact ⟨(List.mem_filter.1 h).1, fun _ => of_decide_eq_true (List.mem_filter.1 h).2⟩

/-- A relation that orders the list, and orders the new waiter behind those ahead of its class and before the others,
orders the list with the new waiter. -/
theorem insertWaiter_pairwise {s : State} (inOrder : ClassesInOrder s) {w : Waiter} {R : Waiter → Waiter → Prop}
    (ordered : s.waiters.Pairwise R) (ahead : ∀ v ∈ aheadOfClass w.claim.priority s.waiters, R v w)
    (behind : ∀ v ∈ s.waiters, w.claim.priority = .urgent → v.claim.priority = .normal → R w v) :
    (insertWaiter w s.waiters).Pairwise R := by
  obtain ⟨front, back, split, inserted, place⟩ := insertWaiter_split w s.waiters
  obtain ⟨before, after⟩ := place inOrder
  rw [inserted]
  have all := List.pairwise_append.1 (split ▸ ordered)
  refine List.pairwise_append.2 ⟨all.1, List.pairwise_cons.2 ⟨fun v hv => ?_, all.2.1⟩, fun a ha b hb => ?_⟩
  · exact behind v (split ▸ List.mem_append_right front hv) (after v hv).1 (after v hv).2
  · rcases List.mem_cons.1 hb with rfl | old
    · exact ahead a (before ▸ ha)
    · exact all.2.2 a ha b old

theorem queueWaiter_keeps_classesInOrder {s : State} (w : Waiter) (law : ClassesInOrder s) :
    ClassesInOrder (queueWaiter w s) :=
  insertWaiter_pairwise law law (fun _ hv => (mem_aheadOfClass hv).2)
    fun _ _ urgent _ _ => urgent

theorem Course.classesInOrder {s t : State} {b : Bool} (h : Course s b t) (law : ClassesInOrder s) : ClassesInOrder t :=
  h.keep (fun acts => acts.thinned.classesInOrder) (fun {_ w} _ => queueWaiter_keeps_classesInOrder w) law

/-! #### The arrivals -/

/-- How many waiters have been queued from an arrival number on. -/
def ageOf (arrivals : Arrival) (q : KeptWaiter) : Nat := (arrivals - q.arrival).toNat

/-- What the ninth law asks of the arrivals, read off the order of the list. -/
def KeptInOrder (arrivals : Arrival) (qs : List KeptWaiter) : Prop :=
  (∀ q ∈ qs, 1 ≤ ageOf arrivals q)
    ∧ qs.Pairwise fun a b => a.priority = b.priority → ageOf arrivals b < ageOf arrivals a

theorem arrivalsInOrder_iff {s : State} : ArrivalsInOrder s ↔ KeptInOrder s.arrivals (s.waiters.map keep) := by
  rw [KeptInOrder, List.forall_mem_map, List.pairwise_map]
  rfl

theorem Thinned.arrivalsInOrder {s t : State} (h : Thinned s t) (law : ArrivalsInOrder s) : ArrivalsInOrder t := by
  rcases h.arrivals with same | none
  · obtain ⟨aged, ordered⟩ := arrivalsInOrder_iff.1 law
    rw [arrivalsInOrder_iff, same]
    exact ⟨fun q hq => aged q (h.kept.subset hq), ordered.sublist h.kept⟩
  · rw [ArrivalsInOrder, none]
    exact ⟨nofun, .nil⟩

theorem Thinned.ninthLaw {s t : State} (h : Thinned s t) (law : NinthLaw s) : NinthLaw t :=
  ⟨h.classesInOrder law.1, h.arrivalsInOrder law.2⟩

/-- Fewer than 4,294,967,295 waiters have been queued from the oldest that waits (R42). -/
def AgesBelow (s : State) : Prop := ∀ w ∈ s.waiters, age s w < 4294967295

theorem agesBelow_iff {s : State} : AgesBelow s ↔ ∀ q ∈ s.waiters.map keep, ageOf s.arrivals q < 4294967295 := by
  rw [List.forall_mem_map]
  rfl

theorem Thinned.agesBelow {s t : State} (h : Thinned s t) (young : AgesBelow s) : AgesBelow t := by
  rcases h.arrivals with same | none
  · rw [agesBelow_iff] at young ⊢
    rw [same]
    exact fun q hq => young q (h.kept.subset hq)
  · rw [AgesBelow, none]
    exact nofun

/-- A queueing ages every waiter by one, and the new one has age 1. -/
theorem age_queueWaiter {s : State} {w v : Waiter} (young : age s v < 4294967295) :
    age (queueWaiter w s) v = age s v + 1 := by
  have counter : (queueWaiter w s).arrivals = s.arrivals + 1 := rfl
  have shifted : s.arrivals + 1 - v.arrival = (s.arrivals - v.arrival) + 1 := by
    rw [BitVec.sub_eq_add_neg, BitVec.sub_eq_add_neg]
    ac_rfl
  rw [age, counter, shifted, BitVec.toNat_add]
  exact Nat.mod_eq_of_lt (show age s v + 1 < 4294967296 from Nat.succ_lt_succ young)

theorem age_queueWaiter_self {s : State} {w : Waiter} (arrival : w.arrival = s.arrivals) :
    age (queueWaiter w s) w = 1 := by
  have counter : (queueWaiter w s).arrivals = s.arrivals + 1 := rfl
  rw [age, counter, arrival, BitVec.add_comm, BitVec.add_sub_cancel]
  rfl

theorem queueWaiter_keeps_ninthLaw {s : State} {w : Waiter} (arrival : w.arrival = s.arrivals) (law : NinthLaw s)
    (young : AgesBelow s) : NinthLaw (queueWaiter w s) := by
  obtain ⟨classes, aged, ordered⟩ := law
  have self := age_queueWaiter_self arrival
  refine ⟨queueWaiter_keeps_classesInOrder w classes, fun v hv => ?_, ?_⟩
  · rcases (mem_insertWaiter w v s.waiters).1 hv with rfl | old
    · exact Nat.le_of_eq self.symm
    · rw [age_queueWaiter (young v old)]
      exact Nat.le_add_left 1 _
  · refine insertWaiter_pairwise classes ?_ (fun v hv _ => ?_) fun v _ urgent normal same => ?_
    · refine ordered.imp_of_mem fun {a b} ha hb earlier same => ?_
      rw [age_queueWaiter (young a ha), age_queueWaiter (young b hb)]
      exact Nat.succ_lt_succ (earlier same)
    · have old := (mem_aheadOfClass hv).1
      rw [self, age_queueWaiter (young v old)]
      exact Nat.lt_succ_of_le (aged v old)
    · cases normal.symm.trans (same.symm.trans urgent)

theorem Course.ninthLaw {s t : State} {b : Bool} (h : Course s b t) (law : NinthLaw s) (young : AgesBelow s) :
    NinthLaw t := by
  cases h with
  | acts all => exact all.thinned.ninthLaw law
  | queues first queue last =>
    exact last.thinned.ninthLaw
      (queueWaiter_keeps_ninthLaw queue.arrival (first.thinned.ninthLaw law) (first.thinned.agesBelow young))

end Sys2Proof.Machine

/-! ### The numbers of the notices along a step (R139, R140) -/

namespace Sys2Proof.Machine

/-- What the tenth law asks of one queue. -/
def QueueSound (q : NoticeState) : Prop :=
  q.queue.length ≤ 8 ∧ (q.lostCount < 255 → numbersSkipped q.queue q.nextSeq ≤ q.lostCount)

theorem tenthLaw_iff {s : State} : TenthLaw s ↔ ∀ k, QueueSound (s.notice k) := .rfl

/-- A notice stored under the next number skips none. -/
theorem numbersSkipped_append (n : Notice) (next : SeqNo) : ∀ queue : List NoticeRecord,
    numbersSkipped (queue ++ [{ seq := next, notice := n }]) (next + 1) = numbersSkipped queue next
  | [] => by
    simp only [List.nil_append, numbersSkipped]
    bv_omega
  | [a] => by
    simp only [List.singleton_append, numbersSkipped]
    bv_omega
  | a :: b :: rest => by
    have later := numbersSkipped_append n next (b :: rest)
    simp only [List.cons_append, numbersSkipped] at later ⊢
    rw [later]

/-- A number given to a dropped notice is skipped. -/
theorem numbersSkipped_succ (next : SeqNo) : ∀ queue : List NoticeRecord,
    numbersSkipped queue (next + 1) ≤ numbersSkipped queue next + 1
  | [] => Nat.zero_le _
  | [a] => by
    simp only [numbersSkipped]
    bv_omega
  | a :: b :: rest => by
    have later := numbersSkipped_succ next (b :: rest)
    simp only [numbersSkipped]
    omega

theorem numbersSkipped_tail (a : NoticeRecord) (next : SeqNo) : ∀ rest : List NoticeRecord,
    numbersSkipped rest next ≤ numbersSkipped (a :: rest) next
  | [] => Nat.zero_le _
  | _ :: _ => Nat.le_add_left _ _

theorem storeNotice_queueSound {q : NoticeState} (n : Notice) (sound : QueueSound q) : QueueSound (storeNotice n q) := by
  obtain ⟨short, skipped⟩ := sound
  by_cases room : q.queue.length < 8
  · rw [storeNotice_of_room n room]
    refine ⟨?_, fun few => ?_⟩
    · rw [List.length_append]
      exact room
    · rw [numbersSkipped_append]
      exact skipped few
  · rw [storeNotice_of_full n (Nat.not_lt.1 room)]
    refine ⟨short, fun few => ?_⟩
    by_cases unsaturated : q.lostCount < 255
    · rw [if_pos unsaturated]
      exact (numbersSkipped_succ _ _).trans (Nat.succ_le_succ (skipped unsaturated))
    · rw [if_neg unsaturated] at few
      exact absurd few (Nat.lt_irrefl _)

theorem QueueChange.sound {q q' : NoticeState} (change : QueueChange q q') (sound : QueueSound q) : QueueSound q' := by
  obtain ⟨short, skipped⟩ := sound
  cases change with
  | posted n => exact storeNotice_queueSound n ⟨short, skipped⟩
  | read => exact ⟨short, skipped⟩
  | @acknowledged n rest oldest =>
    rw [oldest] at short skipped
    exact ⟨(Nat.le_succ _).trans short, fun few => (numbersSkipped_tail n _ rest).trans (skipped few)⟩
  | masked mask => exact ⟨short, skipped⟩
  | emptied => exact ⟨Nat.zero_le _, fun _ => Nat.zero_le _⟩
  | restarted => exact ⟨Nat.zero_le _, fun _ => Nat.zero_le _⟩

theorem tenthLaw_congr {s t : State} (notices : t.notices = s.notices) (law : TenthLaw s) : TenthLaw t := by
  simpa only [TenthLaw, State.notice, notices] using law

theorem tenthLaw_robust : Robust TenthLaw where
  frame _ _ same law := tenthLaw_congr same.notices law
  notice s k q change law j := by
    change QueueSound ((s.setNotice k q).notice j)
    rw [State.setNotice_notice]
    split
    · exact change.sound (law k)
    · exact law j
  agent _ _ _ law := law
  lease _ _ _ law := law
  place _ _ _ law := law
  access _ _ _ law := law
  depart _ _ _ law := law
  rewrite _ _ _ _ law := law
  reset _ _ _ _ _ := tenthLaw_congr rfl reset_tenthLaw

theorem Course.tenthLaw {s t : State} {b : Bool} (h : Course s b t) (law : TenthLaw s) : TenthLaw t :=
  h.keep tenthLaw_robust.acts (fun _ law => law) law

end Sys2Proof.Machine

/-! ### The order of the bounds along a step (R131) -/

namespace Sys2Proof.Machine

theorem eleventhLaw_congr {s t : State} (domains : t.domains = s.domains) (law : EleventhLaw s) : EleventhLaw t := by
  simpa only [EleventhLaw, State.domain, domains] using law

theorem firstUnit_le {s : State} (d : DomainNo) (law : EleventhLaw s) {e : DomainNo} (before : e < d) :
    (s.domain e).bound ≤ firstUnit s d := by
  have notFirst : d ≠ 0 := Fin.ne_of_gt (Fin.lt_of_le_of_lt (Fin.zero_le e) before)
  rw [firstUnit, if_neg notFirst]
  refine (law e (d - 1) ?_).1
  simp only [Fin.le_def, Fin.lt_def, Fin.val_sub_one_of_ne_zero notFirst] at *
  omega

theorem highestBound_le {s : State} (d : DomainNo) (law : EleventhLaw s) :
    highestBound s d ≤ unitSpace ∧ ∀ e, d < e → highestBound s d ≤ (s.domain e).bound := by
  by_cases last : d = 15
  · subst last
    exact ⟨Nat.le_refl _, fun e after => absurd after (Fin.not_lt.2 (Fin.le_last e))⟩
  · rw [highestBound, if_neg last]
    refine ⟨(law (d + 1) (d + 1) (Fin.le_refl _)).2, fun e after => (law (d + 1) e ?_).1⟩
    simp only [Fin.lt_def, Fin.le_def, Fin.val_add, Fin.ext_iff] at *
    omega

theorem setDomain_keeps_eleventhLaw {s : State} {d : DomainNo} {r : DomainRecord} (low : firstUnit s d ≤ r.bound)
    (high : r.bound ≤ highestBound s d) (law : EleventhLaw s) : EleventhLaw (s.setDomain d r) := by
  obtain ⟨within, below⟩ := highestBound_le d law
  intro e f order
  simp only [State.setDomain_domain]
  by_cases first : e = d <;> by_cases second : f = d
  · simp only [if_pos first, if_pos second]
    exact ⟨Nat.le_refl _, high.trans within⟩
  · have after : d < f := lt_of_le_of_ne (first ▸ order) (Ne.symm second)
    simp only [if_pos first, if_neg second]
    exact ⟨high.trans (below f after), (law f f (Fin.le_refl f)).2⟩
  · have before : e < d := lt_of_le_of_ne (second ▸ order) first
    simp only [if_neg first, if_pos second]
    exact ⟨(firstUnit_le d law before).trans low, high.trans within⟩
  · simp only [if_neg first, if_neg second]
    exact law e f order

theorem move_keeps_eleventhLaw (s t : State) (h : Move s t) (law : EleventhLaw s) : EleventhLaw t := by
  cases h with
  | reshape h => exact eleventhLaw_congr h.domains law
  | grant => exact eleventhLaw_congr rfl law
  | queue => exact eleventhLaw_congr rfl law
  | walk => exact eleventhLaw_congr (reexamine_domains s) law
  | setAccess => exact eleventhLaw_congr rfl law
  | setDomain _ low high => exact setDomain_keeps_eleventhLaw low high law
  | reset => exact eleventhLaw_congr rfl reset_eleventhLaw

/-- Settles O60: the acts of a step thin the list out and keep each queue sound, its one queueing puts the new waiter
behind its class, and its moves keep the order of the bounds. -/
theorem everyStepKeepsTheNinthToEleventhLaws : Obligations.EveryStepKeepsTheNinthToEleventhLaws := by
  intro s t h
  obtain ⟨u, b, same, course, -⟩ := step_course h
  have thinned : Thinned s u := .of_same same.waiters same.arrivals
  exact ⟨fun law => course.classesInOrder (thinned.classesInOrder law),
    fun law young => course.ninthLaw (thinned.ninthLaw law) (thinned.agesBelow young),
    fun law => course.tenthLaw (tenthLaw_congr same.notices law), (step_moves h).keep move_keeps_eleventhLaw⟩

end Sys2Proof.Machine

/-! ### The eighth law along a step (R50) -/

namespace Sys2Proof.Machine

theorem Tightens.eighthLaw {s t : State} (tightens : Tightens s t) (waiters : t.waiters = s.waiters) (law : EighthLaw s) :
    EighthLaw t := by
  rw [eighthLaw_iff] at law ⊢
  rw [waiters]
  exact fun w hw granted => law w hw (tightens.grantable (fun v hv => ⟨v, hv, rfl⟩) granted)

theorem reshape_tightens {s : State} {i : LeaseIdx} {l l' : Lease} (held : s.lease i = .held l) (range : l'.range = l.range)
    (mode : l.mode = .exclusive → l'.mode = .exclusive) : Tightens s (s.setLease i (.held l')) where
  leases j m hm := by
    rw [State.setLease_lease]
    split
    · next here =>
      subst here
      obtain rfl := SlotContent.held.inj (held.symm.trans hm)
      exact ⟨l', rfl, range, mode⟩
    · exact ⟨m, hm, rfl, id⟩
  room _ under := under

theorem setAgent_tightens {s : State} {k : AgentNo} {a : AgentRecord} (leases : a.leaseCount = (s.agent k).leaseCount) :
    Tightens s (s.setAgent k a) := by
  refine .of_same rfl (fun j => ?_) fun _ => Nat.le_refl _
  rw [State.setAgent_agent]
  split
  · next own => rw [own, leases]
  · rfl

theorem setAccessOf_tightens {s : State} {k : AgentNo} {a : AccessRecord}
    (lower : a.leaseLimit ≤ (s.accessOf k).leaseLimit) : Tightens s (s.setAccessOf k a) := by
  refine .of_same rfl (fun _ => rfl) fun j => ?_
  rw [State.setAccessOf_accessOf]
  split
  · next own => exact own ▸ lower
  · exact Nat.le_refl _

theorem Steady.eighthLaw {s t : State} (act : Steady s t) (law : EighthLaw s) : EighthLaw t := by
  cases act with
  | frame same =>
    have limits : ∀ k, (t.accessOf k).leaseLimit ≤ (s.accessOf k).leaseLimit := fun k => by
      rw [State.accessOf, same.access]
      exact Nat.le_refl _
    exact (Tightens.of_same same.leases same.leaseCounts limits).eighthLaw same.waiters law
  | notice => exact (Tightens.of_same rfl (fun _ => rfl) fun _ => Nat.le_refl _).eighthLaw rfl law
  | attach _ leases => exact (setAgent_tightens leases).eighthLaw rfl law
  | reshape held _ range mode => exact (reshape_tightens held range mode).eighthLaw rfl law
  | grant _ verdict => exact (placeLease_tightens (free_of_grantVerdict verdict)).eighthLaw rfl law
  | setAccess _ _ lower => exact (setAccessOf_tightens lower).eighthLaw rfl law
  | reset => exact fun _ none => nomatch none

/-- Acts that re-examine after the last loose one leave no waiter grantable. -/
theorem Acts.eighthLaw {s t : State} {b : Bool} (acts : Acts s b t) (distinct : WaitSlotsDistinct s) (law : EighthLaw s) :
    b = true → EighthLaw t := by
  induction acts with
  | refl => exact fun _ => law
  | steady _ last ih => exact fun settled => last.eighthLaw (ih settled)
  | loose => exact nofun
  | walk first => exact fun _ => oneWalkRestoresTheEighthLaw _ (first.thinned.waitSlotsDistinct distinct)
  | forget => exact nofun

/-! #### A queueing -/

theorem queueWaiter_agent (w : Waiter) (s : State) (k : AgentNo) :
    (queueWaiter w s).agent k =
      if k = w.claim.agent then { s.agent k with waitCount := (s.agent k).waitCount + 1 } else s.agent k := by
  refine (State.setAgent_agent s w.claim.agent _ k).trans ?_
  split
  · next own => rw [own]
  · rfl

theorem queueWaiter_tightens (w : Waiter) (s : State) : Tightens s (queueWaiter w s) := by
  refine .of_same rfl (fun k => ?_) fun _ => Nat.le_refl _
  rw [queueWaiter_agent]
  split <;> rfl

/-- A newcomer takes no waiter out of those ahead. -/
theorem aheadOf_sublist {id : WaitId} {w : Waiter} (other : w.id ≠ id) (back : List Waiter) : ∀ front : List Waiter,
    (aheadOf id (front ++ back)).Sublist (aheadOf id (front ++ w :: back))
  | [] => by
    rw [List.nil_append, List.nil_append, aheadOf, aheadOf, List.takeWhile_cons_of_pos (by simpa using other)]
    exact List.sublist_cons_self _ _
  | v :: front => by
    have rest := aheadOf_sublist other back front
    by_cases stops : v.id = id
    · simp [aheadOf, stops]
    · simpa [aheadOf, stops] using rest

theorem queueWaiter_keeps_eighthLaw {s : State} {w : Waiter} (queue : Queueable s w) (classes : ClassesInOrder s)
    (law : EighthLaw s) : EighthLaw (queueWaiter w s) := by
  have tightens := queueWaiter_tightens w s
  have fresh : ∀ v ∈ s.waiters, w.id ≠ v.id := fun v hv same => queue.fresh v hv (congrArg WaitId.slot same.symm)
  obtain ⟨front, back, split, inserted, place⟩ := insertWaiter_split w s.waiters
  obtain ⟨ahead, -⟩ := place classes
  have waiters : (queueWaiter w s).waiters = front ++ w :: back := inserted
  rw [eighthLaw_iff] at law ⊢
  intro v hv granted
  rcases (mem_insertWaiter w v s.waiters).1 hv with rfl | old
  · have here : aheadOf v.id (queueWaiter v s).waiters = front := by
      have before : ∀ u ∈ front, u.id ≠ v.id := fun u hu => (fresh u (split ▸ List.mem_append_left back hu)).symm
      rw [waiters, aheadOf, List.takeWhile_append_of_pos (by simpa using before), List.takeWhile_cons_of_neg (by simp),
        List.append_nil]
    rw [here] at granted
    exact queue.barred (tightens.grantable (fun u hu => ⟨u, ahead ▸ hu, rfl⟩) granted)
  · have more := aheadOf_sublist (fresh v old) back front
    rw [← split, ← waiters] at more
    exact law v old (tightens.grantable (fun u hu => ⟨u, more.subset hu, rfl⟩) granted)

/-- A newcomer finds its slot empty, and the others in slots of their own (R39, R40). -/
theorem queueWaiter_keeps_waitSlotsDistinct {s : State} {w : Waiter} (fresh : ∀ v ∈ s.waiters, v.id.slot ≠ w.id.slot)
    (distinct : WaitSlotsDistinct s) : WaitSlotsDistinct (queueWaiter w s) := by
  obtain ⟨front, back, split, inserted, -⟩ := insertWaiter_split w s.waiters
  have waiters : (queueWaiter w s).waiters = front ++ w :: back := inserted
  have perm : (front ++ w :: back).Perm (w :: s.waiters) := split ▸ List.perm_middle
  rw [WaitSlotsDistinct, waiters, (perm.map _).nodup_iff, List.map_cons, List.nodup_cons]
  refine ⟨fun taken => ?_, distinct⟩
  obtain ⟨v, hv, same⟩ := List.mem_map.1 taken
  exact fresh v hv same

theorem Course.eighthLaw {s t : State} (course : Course s true t) (distinct : WaitSlotsDistinct s)
    (classes : ClassesInOrder s) (law : EighthLaw s) : EighthLaw t := by
  cases course with
  | acts all => exact all.eighthLaw distinct law rfl
  | queues first queue last =>
    have thinned := first.thinned
    have queued := queueWaiter_keeps_eighthLaw queue (thinned.classesInOrder classes) (first.eighthLaw distinct law rfl)
    exact last.eighthLaw (queueWaiter_keeps_waitSlotsDistinct queue.fresh (thinned.waitSlotsDistinct distinct)) queued rfl

theorem isWhole_of_ne {c : Instr}
    (inside : (∀ i, c ≠ .leaseExpiry i) ∧ (∀ i, c ≠ .graceLapse i) ∧ ∀ i, c ≠ .waitLapse i) : isWhole c = true := by
  obtain ⟨expiry, grace, wait⟩ := inside
  cases c with
  | leaseExpiry i => exact absurd rfl (expiry i)
  | graceLapse i => exact absurd rfl (grace i)
  | waitLapse i => exact absurd rfl (wait i)
  | _ => rfl

/-- Settles O59: a whole step is a settled course, whose steady acts and queueing keep each waiter barred, and which
re-examines the list after anything else. -/
theorem everyWholeActionKeepsTheEighthLaw : Obligations.EveryWholeActionKeepsTheEighthLaw := by
  intro s t distinct classes law h outside
  obtain ⟨u, b, same, course, settled⟩ := step_course h
  obtain rfl := settled fun c rest waiting => isWhole_of_ne (outside c rest waiting)
  have thinned : Thinned s u := .of_same same.waiters same.arrivals
  exact course.eighthLaw (thinned.waitSlotsDistinct distinct) (thinned.classesInOrder classes)
    (Steady.eighthLaw (.frame same) law)

end Sys2Proof.Machine

/-! ### The third and sixth laws along a step (R39, R113, R114) -/

namespace Sys2Proof.Machine

/-! #### The three laws, agent by agent -/

/-- The agents of the waiters, in list order. -/
def waiterAgents (s : State) : List AgentNo := s.waiters.map (·.claim.agent)

/-- Waiters stand in different slots (R39), the counts equal the records and stay within the limits (R113), and whoever
holds a lease or waits is ATTACHED (R114). -/
structure Books (s : State) : Prop where
  slots : (s.waiters.map (·.id.slot)).Nodup
  leases : ∀ k, (s.agent k).leaseCount = (holdings s k).length
  waits : ∀ k, (s.agent k).waitCount = (waiterAgents s).count k
  leaseLimit : ∀ k, (s.agent k).leaseCount ≤ (s.accessOf k).leaseLimit
  waitLimit : ∀ k, (s.agent k).waitCount ≤ (s.accessOf k).waitLimit
  holders : ∀ k i, heldBy s k i = true → (s.agent k).state = .attached
  waiting : ∀ k ∈ waiterAgents s, (s.agent k).state = .attached

theorem waitersOf_length (s : State) (k : AgentNo) : (waitersOf s k).length = (waiterAgents s).count k := by
  rw [waiterAgents, List.count, List.countP_map, List.countP_eq_length_filter, waitersOf]
  refine congrArg List.length (List.filter_congr fun w _ => ?_)
  rw [Function.comp_apply, beq_eq_decide]

theorem books_iff {s : State} : Books s ↔ WaitSlotsDistinct s ∧ ThirdLaw s ∧ SixthLaw s := by
  constructor
  · intro books
    refine ⟨books.slots, fun k => ⟨books.leases k, books.leaseLimit k, ?_, books.waitLimit k⟩, fun i l held => ?_,
      fun w hw => books.waiting _ (List.mem_map_of_mem hw)⟩
    · rw [waitersOf_length]
      exact books.waits k
    · exact books.holders l.holder i (heldBy_iff.2 ⟨l, held, rfl⟩)
  · rintro ⟨distinct, third, leases, waiters⟩
    refine ⟨distinct, fun k => (third k).1, fun k => ?_, fun k => (third k).2.1, fun k => (third k).2.2.2, fun k i h => ?_,
      fun k hk => ?_⟩
    · rw [← waitersOf_length]
      exact (third k).2.2.1
    · obtain ⟨l, held, rfl⟩ := heldBy_iff.1 h
      exact leases i l held
    · obtain ⟨w, hw, rfl⟩ := List.mem_map.1 hk
      exact waiters w hw

/-! #### Counting the leases of an agent -/

theorem heldBy_of_lease_eq {s t : State} {i : LeaseIdx} (same : t.lease i = s.lease i) (k : AgentNo) :
    heldBy t k i = heldBy s k i := by
  unfold heldBy
  rw [same]

theorem heldBy_of_free {s : State} {i : LeaseIdx} {m : Option LeaseMemory} (free : s.lease i = .free m) (k : AgentNo) :
    heldBy s k i = false := by
  simp only [heldBy, free]

theorem heldBy_of_held {s : State} {i : LeaseIdx} {l : Lease} (held : s.lease i = .held l) (k : AgentNo) :
    heldBy s k i = decide (l.holder = k) := by
  simp only [heldBy, held]

theorem holdings_congr {s t : State} {k : AgentNo} (same : ∀ i, heldBy t k i = heldBy s k i) :
    holdings t k = holdings s k := by
  rw [holdings_eq_filter, holdings_eq_filter]
  exact List.filter_congr fun i _ => same i

/-- One lease more. -/
theorem holdings_length_succ {s t : State} {k : AgentNo} {i : LeaseIdx} (before : heldBy s k i = false)
    (after : heldBy t k i = true) (others : ∀ j, j ≠ i → heldBy t k j = heldBy s k j) :
    (holdings t k).length = (holdings s k).length + 1 := by
  have member : i ∈ holdings t k := (mem_holdings t k i).2 (heldBy_iff.1 after)
  have rest : holdings s k = (holdings t k).erase i := by
    rw [(holdings_nodup t k).erase_eq_filter, holdings_eq_filter, holdings_eq_filter, List.filter_filter]
    refine List.filter_congr fun j _ => ?_
    by_cases here : j = i
    · simp [here, before]
    · simp [here, others j here]
  rw [rest, List.length_erase_add_one member]

/-! #### One act -/

/-- What leaves who holds, who waits, states and counts, and no limit under its count. -/
theorem Books.of_same {s t : State} (books : Books s) (held : ∀ k i, heldBy t k i = heldBy s k i)
    (slots : t.waiters.map (·.id.slot) = s.waiters.map (·.id.slot)) (agents : waiterAgents t = waiterAgents s)
    (states : ∀ k, (t.agent k).state = (s.agent k).state) (leases : ∀ k, (t.agent k).leaseCount = (s.agent k).leaseCount)
    (waits : ∀ k, (t.agent k).waitCount = (s.agent k).waitCount)
    (leaseLimit : ∀ k, (s.agent k).leaseCount ≤ (t.accessOf k).leaseLimit)
    (waitLimit : ∀ k, (s.agent k).waitCount ≤ (t.accessOf k).waitLimit) : Books t where
  slots := slots ▸ books.slots
  leases k := by rw [leases, books.leases, holdings_congr (held k)]
  waits k := by rw [waits, books.waits, agents]
  leaseLimit k := leases k ▸ leaseLimit k
  waitLimit k := waits k ▸ waitLimit k
  holders k i h := states k ▸ books.holders k i (held k i ▸ h)
  waiting k hk := states k ▸ books.waiting k (agents ▸ hk)

theorem Books.same {s t : State} (books : Books s) (same : SameBooks s t) : Books t := by
  have access : ∀ k, t.accessOf k = s.accessOf k := fun k => by
    rw [State.accessOf, same.access]
    rfl
  refine books.of_same (fun k i => heldBy_of_lease_eq ?_ k) (by rw [same.waiters]) ?_ same.states same.leaseCounts
    same.waitCounts (fun k => access k ▸ books.leaseLimit k) fun k => access k ▸ books.waitLimit k
  · rw [State.lease, same.leases]
    rfl
  · rw [waiterAgents, same.waiters]
    rfl

theorem setNotice_keeps_books {s : State} (k : AgentNo) (q : NoticeState) (books : Books s) : Books (s.setNotice k q) :=
  books.of_same (fun _ _ => rfl) rfl rfl (fun _ => rfl) (fun _ => rfl) (fun _ => rfl) books.leaseLimit books.waitLimit

theorem setAgent_keeps_books {s : State} {k : AgentNo} {a : AgentRecord} (books : Books s) (state : a.state = .attached)
    (leases : a.leaseCount = (s.agent k).leaseCount) (waits : a.waitCount = (s.agent k).waitCount) :
    Books (s.setAgent k a) := by
  have record : ∀ j, j = k ∧ (s.setAgent k a).agent j = a ∨ (s.setAgent k a).agent j = s.agent j := fun j => by
    rw [State.setAgent_agent]
    by_cases own : j = k <;> simp [own]
  have sameLeases : ∀ j, ((s.setAgent k a).agent j).leaseCount = (s.agent j).leaseCount := fun j => by
    rcases record j with ⟨rfl, written⟩ | kept
    · rw [written, leases]
    · rw [kept]
  have sameWaits : ∀ j, ((s.setAgent k a).agent j).waitCount = (s.agent j).waitCount := fun j => by
    rcases record j with ⟨rfl, written⟩ | kept
    · rw [written, waits]
    · rw [kept]
  have attached : ∀ j, (s.agent j).state = .attached → ((s.setAgent k a).agent j).state = .attached := fun j before => by
    rcases record j with ⟨rfl, written⟩ | kept
    · rw [written, state]
    · rw [kept, before]
  exact
    { slots := books.slots
      leases := fun j => (sameLeases j).trans (books.leases j)
      waits := fun j => (sameWaits j).trans (books.waits j)
      leaseLimit := fun j => sameLeases j ▸ books.leaseLimit j
      waitLimit := fun j => sameWaits j ▸ books.waitLimit j
      holders := fun j i h => attached j (books.holders j i h)
      waiting := fun j hj => attached j (books.waiting j hj) }

theorem reshape_keeps_books {s : State} {i : LeaseIdx} {l l' : Lease} (books : Books s) (held : s.lease i = .held l)
    (holder : l'.holder = l.holder) : Books (s.setLease i (.held l')) := by
  refine books.of_same (fun k j => ?_) rfl rfl (fun _ => rfl) (fun _ => rfl) (fun _ => rfl) books.leaseLimit
    books.waitLimit
  by_cases here : j = i
  · subst here
    rw [heldBy_of_held (State.setLease_lease_self s j _), heldBy_of_held held, holder]
  · exact heldBy_of_lease_eq (State.setLease_lease_ne s i _ j here) k

theorem setAccessOf_keeps_books {s : State} {k : AgentNo} {a : AccessRecord} (books : Books s)
    (leases : (s.agent k).leaseCount ≤ a.leaseLimit) (waits : (s.agent k).waitCount ≤ a.waitLimit) :
    Books (s.setAccessOf k a) := by
  refine books.of_same (fun _ _ => rfl) rfl rfl (fun _ => rfl) (fun _ => rfl) (fun _ => rfl) (fun j => ?_) fun j => ?_ <;>
    rw [State.setAccessOf_accessOf] <;> split
  · next own => exact own ▸ leases
  · exact books.leaseLimit j
  · next own => exact own ▸ waits
  · exact books.waitLimit j

/-- What changes leases and lease counts alone. -/
theorem Books.of_leases {s t : State} (books : Books s) (waiters : t.waiters = s.waiters) (access : t.access = s.access)
    (states : ∀ k, (t.agent k).state = (s.agent k).state) (waits : ∀ k, (t.agent k).waitCount = (s.agent k).waitCount)
    (leases : ∀ k, (t.agent k).leaseCount = (holdings t k).length)
    (limit : ∀ k, (t.agent k).leaseCount ≤ (s.accessOf k).leaseLimit)
    (holders : ∀ k i, heldBy t k i = true → (s.agent k).state = .attached) : Books t := by
  have agents : waiterAgents t = waiterAgents s := by rw [waiterAgents, waiters]; rfl
  have rights : ∀ k, t.accessOf k = s.accessOf k := fun k => by rw [State.accessOf, access]; rfl
  exact
    { slots := waiters ▸ books.slots
      leases := leases
      waits := fun k => by rw [waits, books.waits, agents]
      leaseLimit := fun k => rights k ▸ limit k
      waitLimit := fun k => by rw [waits, rights]; exact books.waitLimit k
      holders := fun k i h => states k ▸ holders k i h
      waiting := fun k hk => states k ▸ books.waiting k (agents ▸ hk) }

/-- What changes the list and the wait counts alone. -/
theorem Books.of_waiters {s t : State} (books : Books s) (leases : t.leases = s.leases) (access : t.access = s.access)
    (states : ∀ k, (t.agent k).state = (s.agent k).state)
    (leaseCounts : ∀ k, (t.agent k).leaseCount = (s.agent k).leaseCount) (slots : WaitSlotsDistinct t)
    (waits : ∀ k, (t.agent k).waitCount = (waiterAgents t).count k)
    (limit : ∀ k, (t.agent k).waitCount ≤ (s.accessOf k).waitLimit)
    (waiting : ∀ k ∈ waiterAgents t, (s.agent k).state = .attached) : Books t := by
  have held : ∀ k i, heldBy t k i = heldBy s k i := fun k i => heldBy_of_lease_eq (by rw [State.lease, leases]; rfl) k
  have rights : ∀ k, t.accessOf k = s.accessOf k := fun k => by rw [State.accessOf, access]; rfl
  exact
    { slots := slots
      leases := fun k => by rw [leaseCounts, books.leases, holdings_congr (held k)]
      waits := waits
      leaseLimit := fun k => by rw [leaseCounts, rights]; exact books.leaseLimit k
      waitLimit := fun k => rights k ▸ limit k
      holders := fun k i h => states k ▸ books.holders k i (held k i ▸ h)
      waiting := fun k hk => states k ▸ waiting k hk }

/-! #### A grant and an end -/

theorem heldBy_placeLease (c : Claim) (i : LeaseIdx) (s : State) (k : AgentNo) (j : LeaseIdx) :
    heldBy (placeLease c i s) k j = if j = i then decide (c.agent = k) else heldBy s k j := by
  split
  · next here => exact here ▸ heldBy_of_held (placeLease_lease_self c i s) k
  · next other => exact heldBy_of_lease_eq (placeLease_lease_ne c i j s other) k

theorem holdings_placeLease {c : Claim} {i : LeaseIdx} {s : State} {m : Option LeaseMemory} (free : s.lease i = .free m)
    (k : AgentNo) :
    (holdings (placeLease c i s) k).length =
      if k = c.agent then (holdings s k).length + 1 else (holdings s k).length := by
  split
  · next own =>
    refine holdings_length_succ (heldBy_of_free free k) ?_ fun j other => ?_
    · rw [heldBy_placeLease, if_pos rfl, decide_eq_true own.symm]
    · rw [heldBy_placeLease, if_neg other]
  · next other =>
    refine congrArg List.length (holdings_congr fun j => ?_)
    rw [heldBy_placeLease]
    split
    · next here => rw [here, heldBy_of_free free, decide_eq_false (Ne.symm other)]
    · rfl

/-- A grant counts one lease to an ATTACHED agent under its limit. -/
theorem placeLease_keeps_books {s : State} {c : Claim} {ahead : List Waiter} {i : LeaseIdx} (books : Books s)
    (attached : (s.agent c.agent).state = .attached) (verdict : grantVerdict s c ahead = .grantable i) :
    Books (placeLease c i s) := by
  obtain ⟨-, -, under, -⟩ := grantVerdict_eq_grantable.1 verdict
  obtain ⟨m, free⟩ := free_of_grantVerdict verdict
  refine books.of_leases rfl rfl (fun k => ?_) (fun k => ?_) (fun k => ?_) (fun k => ?_) fun k j h => ?_
  · rw [placeLease_agent]
    split <;> rfl
  · rw [placeLease_agent]
    split <;> rfl
  · rw [placeLease_agent, holdings_placeLease free, ← books.leases]
    split <;> rfl
  · rw [placeLease_agent]
    split
    · next own => exact own ▸ under
    · exact books.leaseLimit k
  · rw [heldBy_placeLease] at h
    split at h
    · exact of_decide_eq_true h ▸ attached
    · exact books.holders k j h

section EndLease

variable {s : State} {i : LeaseIdx} {l : Lease} (cause : EndCause) (held : s.lease i = .held l)
include held

theorem endLease_agent (k : AgentNo) :
    (endLease cause i s).agent k = if k = l.holder then (s.agent k).without 1 else s.agent k := by
  have ended := endLease_ended cause held
  split
  · next own => exact own ▸ ended.self
  · next other => exact ended.agents k other

theorem heldBy_endLease (k : AgentNo) (j : LeaseIdx) :
    heldBy (endLease cause i s) k j = if j = i then false else heldBy s k j := by
  have ended := endLease_ended cause held
  split
  · next here =>
    subst here
    exact heldBy_of_free (congrArg LeaseSlot.content (ended.visited j List.mem_cons_self l held)) k
  · next other => exact heldBy_of_lease_eq (ended.lease_of_other (mt List.mem_singleton.1 other)) k

theorem holdings_endLease (k : AgentNo) :
    (holdings (endLease cause i s) k).length =
      if k = l.holder then (holdings s k).length - 1 else (holdings s k).length := by
  split
  · next own =>
    refine Nat.eq_sub_of_add_eq (holdings_length_succ (s := endLease cause i s) (t := s) (i := i) ?_ ?_ fun j other => ?_).symm
    · rw [heldBy_endLease cause held, if_pos rfl]
    · rw [heldBy_of_held held, decide_eq_true own.symm]
    · rw [heldBy_endLease cause held, if_neg other]
  · next other =>
    refine congrArg List.length (holdings_congr fun j => ?_)
    rw [heldBy_endLease cause held]
    split
    · next here => rw [here, heldBy_of_held held, decide_eq_false (Ne.symm other)]
    · rfl

end EndLease

/-- An end takes one lease off its holder's count (R14). -/
theorem endLease_keeps_books {s : State} (cause : EndCause) (i : LeaseIdx) (books : Books s) :
    Books (endLease cause i s) := by
  cases held : s.lease i with
  | free m =>
    rw [endLease_free cause held]
    exact books
  | held l =>
    have frame := (endLease_ended cause held).frame
    have waiters : (endLease cause i s).waiters = s.waiters := by rw [frame]
    have access : (endLease cause i s).access = s.access := by rw [frame]
    refine books.of_leases waiters access (fun k => ?_) (fun k => ?_)
      (fun k => ?_) (fun k => ?_) fun k j h => ?_
    · rw [endLease_agent cause held]
      split <;> rfl
    · rw [endLease_agent cause held]
      split <;> rfl
    · rw [endLease_agent cause held, holdings_endLease cause held, ← books.leases]
      split <;> rfl
    · rw [endLease_agent cause held]
      split
      · exact (Nat.sub_le _ 1).trans (books.leaseLimit k)
      · exact books.leaseLimit k
    · rw [heldBy_endLease cause held] at h
      split at h
      · cases h
      · exact books.holders k j h

/-! #### A departure, a rewriting and a queueing -/

theorem depart_agent (cause : WaitEnd) (w : Waiter) (s : State) (k : AgentNo) :
    (depart cause w s).agent k =
      if k = w.claim.agent then { s.agent k with waitCount := (s.agent k).waitCount - 1 } else s.agent k := by
  refine (State.setAgent_agent s w.claim.agent _ k).trans ?_
  split
  · next own => rw [own]
  · rfl

/-- Of a waiter that stands in the list, one is gone. -/
theorem count_waiterAgents_depart {s : State} {w : Waiter} (cause : WaitEnd) (distinct : WaitSlotsDistinct s)
    (waits : w ∈ s.waiters) (k : AgentNo) :
    (waiterAgents (depart cause w s)).count k =
      if k = w.claim.agent then (waiterAgents s).count k - 1 else (waiterAgents s).count k := by
  obtain ⟨front, back, split⟩ := List.append_of_mem waits
  have waiters : (depart cause w s).waiters = front ++ back := by
    rw [depart_spec, split]
    exact filter_ne_of_split (split ▸ distinct.ids)
  rw [waiterAgents, waiterAgents, waiters, split]
  simp only [List.map_append, List.map_cons, List.count_append, List.count_cons, beq_iff_eq, eq_comm (a := k)]
  split <;> omega

/-- A departure takes one waiter off its agent's count, if the waiter stands in the list (R46). -/
theorem depart_keeps_books {s : State} {w : Waiter} (cause : WaitEnd) (waits : w ∈ s.waiters) (books : Books s) :
    Books (depart cause w s) := by
  have shorter : (depart cause w s).waiters.Sublist s.waiters := List.filter_sublist
  refine books.of_waiters rfl rfl (fun k => ?_) (fun k => ?_) (books.slots.sublist (shorter.map _)) (fun k => ?_)
    (fun k => ?_) fun k hk => books.waiting k ((shorter.map _).subset hk)
  · rw [depart_agent]
    split <;> rfl
  · rw [depart_agent]
    split <;> rfl
  · rw [depart_agent, count_waiterAgents_depart cause books.slots waits, ← books.waits]
    split <;> rfl
  · rw [depart_agent]
    split
    · exact (Nat.sub_le _ 1).trans (books.waitLimit k)
    · exact books.waitLimit k

theorem updateWaiter_keeps_books {s : State} (id : WaitId) {f : Waiter → Waiter} (ids : ∀ w, (f w).id = w.id)
    (claims : ∀ w, (f w).claim = w.claim) (books : Books s) : Books (updateWaiter id f s) :=
  books.of_same (fun _ _ => rfl) (map_updateWaiter (fun w => congrArg WaitId.slot (ids w)) id s)
    (map_updateWaiter (fun w => congrArg Claim.agent (claims w)) id s) (fun _ => rfl) (fun _ => rfl) (fun _ => rfl)
    books.leaseLimit books.waitLimit

theorem waiterAgents_queueWaiter (w : Waiter) (s : State) :
    (waiterAgents (queueWaiter w s)).Perm (w.claim.agent :: waiterAgents s) := by
  obtain ⟨front, back, split, inserted, -⟩ := insertWaiter_split w s.waiters
  have waiters : (queueWaiter w s).waiters = front ++ w :: back := inserted
  rw [waiterAgents, waiterAgents, waiters, split]
  exact List.perm_middle.map _

/-- A queueing counts one waiter to an ATTACHED agent under its limit (R42). -/
theorem queueWaiter_keeps_books {s : State} {w : Waiter} (queue : Queueable s w) (books : Books s) :
    Books (queueWaiter w s) := by
  have perm := waiterAgents_queueWaiter w s
  refine books.of_waiters rfl rfl (fun k => ?_) (fun k => ?_)
    (queueWaiter_keeps_waitSlotsDistinct queue.fresh books.slots) (fun k => ?_) (fun k => ?_) fun k hk => ?_
  · rw [queueWaiter_agent]
    split <;> rfl
  · rw [queueWaiter_agent]
    split <;> rfl
  · rw [queueWaiter_agent, perm.count_eq, List.count_cons, ← books.waits]
    by_cases own : k = w.claim.agent
    · simp [own]
    · simp [own, Ne.symm own]
  · rw [queueWaiter_agent]
    split
    · next own => exact own ▸ queue.room
    · exact books.waitLimit k
  · rcases List.mem_cons.1 (perm.mem_iff.1 hk) with rfl | old
    · exact queue.attached
    · exact books.waiting k old

/-! #### All of an agent ends -/

section AllEnded

variable {s t : State} {k : AgentNo} {cause : EndCause}

/-- The agent holds nothing any more, and the others what they held. -/
theorem heldBy_of_allOfAgentEnded (all : AllOfAgentEnded s t k cause) (j : AgentNo) (i : LeaseIdx) :
    heldBy t j i = (decide (j ≠ k) && heldBy s j i) := by
  obtain ⟨ended, kept, -⟩ := all
  by_cases own : ∃ l, s.lease i = .held l ∧ l.holder = k
  · obtain ⟨l, held, rfl⟩ := own
    rw [heldBy_of_free (congrArg LeaseSlot.content (ended i l held rfl)), heldBy_of_held held]
    by_cases same : l.holder = j
    · simp [same]
    · simp [same]
  · rw [heldBy_of_lease_eq (congrArg LeaseSlot.content (kept i fun l held holder => own ⟨l, held, holder⟩))]
    by_cases same : j = k
    · subst same
      have idle : heldBy s j i = false := Bool.eq_false_iff.2 (mt heldBy_iff.1 own)
      simp [idle]
    · simp [same]

/-- The agent waits for nothing any more. -/
theorem waiterAgents_of_allOfAgentEnded (all : AllOfAgentEnded s t k cause) :
    waiterAgents t = (waiterAgents s).filter fun j => decide (j ≠ k) := by
  obtain ⟨-, -, waiters, -⟩ := all
  rw [waiterAgents, waiterAgents, waiters, List.filter_map]
  rfl

/-- The agent's counts come to zero with its records. -/
theorem counts_of_allOfAgentEnded (books : Books s) (all : AllOfAgentEnded s t k cause) :
    (t.agent k).leaseCount = 0 ∧ (t.agent k).waitCount = 0 := by
  obtain ⟨-, -, -, -, -, leaseCount, waitCount, -⟩ := all
  exact ⟨by rw [leaseCount, books.leases, Nat.sub_self], by rw [waitCount, books.waits, waitersOf_length, Nat.sub_self]⟩

/-- Whoever has nothing left may be in any state (R101, R120). -/
theorem allOfAgentEnded_keeps_books (books : Books s) (all : AllOfAgentEnded s t k cause) (access : t.access = s.access) :
    Books t := by
  have held := heldBy_of_allOfAgentEnded all
  have agents := waiterAgents_of_allOfAgentEnded all
  obtain ⟨noLeases, noWaits⟩ := counts_of_allOfAgentEnded books all
  obtain ⟨-, -, waiters, -, -, -, -, others⟩ := all
  have limits : ∀ j, t.accessOf j = s.accessOf j := fun j => by rw [State.accessOf, access]; rfl
  refine ⟨?_, fun j => ?_, fun j => ?_, fun j => ?_, fun j => ?_, fun j i h => ?_, fun j hj => ?_⟩
  · rw [waiters]
    exact books.slots.sublist (List.filter_sublist.map _)
  · by_cases own : j = k
    · subst own
      have empty : holdings t j = [] := by
        rw [holdings_eq_filter]
        exact List.filter_eq_nil_iff.2 fun i _ => by simp [held]
      rw [noLeases, empty, List.length_nil]
    · have same : ∀ i, heldBy t j i = heldBy s j i := fun i => by simp [held, own]
      rw [others j own, books.leases, holdings_congr same]
  · rw [agents]
    by_cases own : j = k
    · subst own
      rw [noWaits]
      exact (List.count_eq_zero.2 fun member => by simpa using (List.mem_filter.1 member).2).symm
    · rw [others j own, books.waits, List.count_filter (by simpa using own)]
  · by_cases own : j = k
    · subst own
      rw [noLeases]
      exact Nat.zero_le _
    · rw [others j own, limits]
      exact books.leaseLimit j
  · by_cases own : j = k
    · subst own
      rw [noWaits]
      exact Nat.zero_le _
    · rw [others j own, limits]
      exact books.waitLimit j
  · rw [held, Bool.and_eq_true, decide_eq_true_iff] at h
    rw [others j h.1]
    exact books.holders j i h.2
  · rw [agents] at hj
    obtain ⟨member, other⟩ := List.mem_filter.1 hj
    rw [others j (of_decide_eq_true other)]
    exact books.waiting j member

end AllEnded

theorem fence_keeps_books {s : State} (k : AgentNo) (cause : FenceCause) (books : Books s) : Books (fence k cause s) := by
  by_cases attached : (s.agent k).state = .attached
  · obtain ⟨all, -, frame⟩ := fenceEndsEverythingOfTheAgent s k cause attached books.slots
    have access : (fence k cause s).access = s.access := by rw [frame]
    exact allOfAgentEnded_keeps_books books all access
  · rw [fence_of_not_attached cause attached]
    exact books

theorem detachAgent_keeps_books {s : State} (k : AgentNo) (books : Books s) : Books (detachAgent k s) := by
  obtain ⟨u, rest, all, -, ends⟩ := endAllOf_setAgent k .detached (s := s) (a := { s.agent k with state := .detached })
    books.slots rfl rfl
  have access : u.access = s.access := by
    obtain ⟨_, _, _, _, rfl⟩ := ends
    rfl
  rw [detachAgent_eq, rest]
  exact (setNotice_keeps_books k _ (allOfAgentEnded_keeps_books books all access)).same (setCursor_sameBooks _ k none)

/-! #### Every waiter in turn -/

/-- A property that a lapse and a rewriting keep, each of a waiter that stands in the list, the wait countdown keeps:
until it is visited a waiter stands in the list unchanged. -/
theorem countdown_keeps_of_waiting (P : State → Prop) (lapse : ∀ s w, w ∈ s.waiters → P s → P (lapseWaiter w s))
    (count : ∀ s id n, P s → P (updateWaiter id (fun v => { v with left := .bounded n }) s)) :
    ∀ (ws : List Waiter) (s : State), (ws.map (·.id)).Nodup → (∀ v ∈ ws, v ∈ s.waiters) → P s →
      P (ws.foldl (fun t w => countdownWaiter w t) s)
  | [], _, _, _, hs => hs
  | w :: ws, s, nodup, stands, hs => by
    obtain ⟨fresh, nodup⟩ := List.nodup_cons.1 nodup
    have other : ∀ v ∈ ws, v.id ≠ w.id := fun v hv same => fresh (List.mem_map.2 ⟨v, hv, same⟩)
    obtain ⟨here, stands⟩ := List.forall_mem_cons.1 stands
    rw [List.foldl_cons]
    rcases countdownWaiter_cases w s with ⟨-, -, result⟩ | ⟨-, -, result⟩ | ⟨n, -, -, result⟩ <;> rw [result]
    · refine countdown_keeps_of_waiting P lapse count ws _ nodup (fun v hv => ?_) (lapse s w here hs)
      exact List.mem_filter.2 ⟨stands v hv, decide_eq_true (other v hv)⟩
    · exact countdown_keeps_of_waiting P lapse count ws s nodup stands hs
    · refine countdown_keeps_of_waiting P lapse count ws _ nodup (fun v hv => ?_) (count s w.id n hs)
      exact List.mem_map.2 ⟨v, stands v hv, if_neg (other v hv)⟩

theorem waitCountdown_keeps_books {s : State} (books : Books s) : Books (waitCountdown s) := by
  have distinct : WaitSlotsDistinct s := books.slots
  exact countdown_keeps_of_waiting Books
    (fun _ _ waits books => setNotice_keeps_books _ _ (depart_keeps_books .lapsed waits books))
    (fun _ id _ books => updateWaiter_keeps_books id (fun _ => rfl) (fun _ => rfl) books) s.waiters s distinct.ids
    (fun _ hv => hv) books

theorem grantWaiter_keeps_books {s : State} {w : Waiter} {ahead : List Waiter} {i : LeaseIdx} (books : Books s)
    (waits : w ∈ s.waiters) (verdict : grantVerdict s w.claim ahead = .grantable i) : Books (grantWaiter w i s) := by
  have placed := placeLease_keeps_books books (books.waiting _ (List.mem_map_of_mem waits)) verdict
  exact setNotice_keeps_books _ _ (depart_keeps_books _ waits placed)

theorem reexamine_keeps_books {s : State} (books : Books s) : Books (reexamine s).1 :=
  reexamine_keeps_of_waiting Books (fun _ _ _ waits books verdict => grantWaiter_keeps_books books waits verdict)
    (fun _ id _ books => updateWaiter_keeps_books id (fun _ => rfl) (fun _ => rfl) books) books.slots books

/-! #### A course -/

theorem reset_books : Books State.reset :=
  books_iff.2 ⟨.nil, reset_thirdLaw, fun i l held => absurd held (reset_not_held i l), nofun⟩

theorem Steady.books {s t : State} (act : Steady s t) (books : Books s) : Books t := by
  cases act with
  | frame same => exact books.same same
  | notice => exact setNotice_keeps_books _ _ books
  | attach state leases waits => exact setAgent_keeps_books books state leases waits
  | reshape held holder => exact reshape_keeps_books books held holder
  | grant attached verdict => exact placeLease_keeps_books books attached verdict
  | setAccess leases waits => exact setAccessOf_keeps_books books leases waits
  | reset => exact reset_books.same (.of_agents rfl rfl rfl rfl rfl rfl)

theorem Loose.books {s t : State} (act : Loose s t) (books : Books s) : Books t := by
  cases act with
  | reshape held holder => exact reshape_keeps_books books held holder
  | endLease => exact endLease_keeps_books _ _ books
  | depart waits => exact depart_keeps_books _ waits books
  | fence => exact fence_keeps_books _ _ books
  | detach => exact detachAgent_keeps_books _ books
  | waitCountdown => exact waitCountdown_keeps_books books
  | setAccess leases waits => exact setAccessOf_keeps_books books leases waits

theorem Acts.books {s t : State} {b : Bool} (acts : Acts s b t) (books : Books s) : Books t := by
  induction acts with
  | refl => exact books
  | steady _ last ih => exact last.books ih
  | loose _ last ih => exact last.books ih
  | walk _ ih => exact reexamine_keeps_books ih
  | forget _ ih => exact ih

/-- Settles O56: every act and the queueing of a step write the counts with the records, within the limits, and only a
fence and a DETACH take an agent out of ATTACHED, after which it has nothing left. -/
theorem everyStepKeepsTheThirdAndSixthLaws : Obligations.EveryStepKeepsTheThirdAndSixthLaws := by
  intro s t distinct third sixth h
  obtain ⟨u, b, same, course, -⟩ := step_course h
  have books : Books s := books_iff.2 ⟨distinct, third, sixth⟩
  exact books_iff.1 (course.keep Acts.books queueWaiter_keeps_books (books.same same))

end Sys2Proof.Machine
